-- ==== Sys2Proof/Word.lean ====
section
/-! DEFINITION. The word types of the block (00_scope.md R9, R11, R12). -/

namespace Sys2Proof

/-- A byte of a memory device (20_memory.md R98). -/
abbrev Byte := BitVec 8

/-- A register value or an address: 32 bits, arithmetic modulo 2^32 (00_scope.md R12). -/
abbrev Word := BitVec 32

/-- The number of a general register, or of a COP0 slot: 0 to 31 (10_state.md R30, R41). -/
abbrev Reg := Fin 32

end Sys2Proof
end

