-- ==== Sys2Proof/Config.lean ====
section
/-! DEFINITION. The words in which a platform is described, the parameters of 00_scope.md R10 that are plain
constants here, and the free values. Parameters that a claim should hold for every value of (the binding list, the
memory contents) stand in State, not here (log 1, log 8). -/

namespace Sys2Proof

/-- The bus access widths: 8, 16, 32 bits (00_scope.md R9). -/
inductive Width where
  | byte
  | half
  | word
  deriving DecidableEq, Repr

/-- The kind of a bus access (20_memory.md R90). -/
inductive AccessKind where
  | fetch
  | store
  deriving DecidableEq, Repr

/-- A binding's capability set: which of the six width functions it offers (20_memory.md R85). -/
structure Caps where
  fetch8 : Bool
  fetch16 : Bool
  fetch32 : Bool
  store8 : Bool
  store16 : Bool
  store32 : Bool
  deriving DecidableEq, Repr

/-- What a binding's device reference points to (20_memory.md R98, R99, R102). `base` is the model's own storage
address of the device's byte 0 (DESIGN CHOICE, log 8): two bindings with one base are one device reached twice. -/
inductive Device where
  /-- A readable and writable byte array. -/
  | memory (base : Nat)
  /-- A byte array with no store functions. -/
  | rom (base : Nat)
  /-- An opaque device: fetches are draws, stores are recorded. -/
  | opaqueUnit (id : Nat)
  deriving DecidableEq, Repr

/-- One entry of the bus's ordered list (20_memory.md R85; 00_scope.md R10). -/
structure Binding where
  start : Word
  size : Word
  device : Device
  caps : Caps
  deriving DecidableEq, Repr

/-- One access to an opaque device (20_memory.md R102, R106): the stores the spec records, and the fetches, which
the draw oracle's history needs (00_scope.md R10; log 2, log 3). -/
inductive DeviceEvent where
  | fetch (binding : Binding) (offset : Word) (width : Width)
  | store (binding : Binding) (offset : Word) (width : Width) (value : Word)
  deriving DecidableEq, Repr

/-- The device draw oracle: "function from (history, binding, offset, width) to a value" (00_scope.md R10;
20_memory.md R102). A FREE VALUE: no body, nothing can evaluate it (log 2). -/
opaque Config.draw : List DeviceEvent → Binding → Word → Width → Word

/-- The registers after init when `reset_gprs_unknown` is true (00_scope.md R10, D3). A FREE VALUE (log 14). -/
opaque Config.resetDraw : Nat → Word

/-- What a byte of a memory device reads as when State lists nothing for it. DESIGN CHOICE (log 1): the value the
spec's own vectors use ("memory not listed is 0", 95_test_vectors.md section 1). -/
def Config.unlistedByte : Byte := 0

/-- Parameter `reset_sr`, default 0 (00_scope.md R10, D4). -/
def Config.resetSr : Word := 0

/-- Parameter `reset_gprs_unknown`, default false (00_scope.md R10, D3). -/
def Config.resetGprsUnknown : Bool := false

end Sys2Proof
end

