-- ==== Sys2Proof/Syntax.lean ====
section
/-! DEFINITION. The instructions: one constructor per row of spec/opcode_table.json, with the fields the row
gives. Fields that a row does not use are not part of the instruction (30_encoding.md R142; log 13). A reserved
word is no row of the table and no constructor: Decode rejects it by name and the tick raises
IllegalInstruction for it (45_system.md R357; log 12). -/

namespace Sys2Proof

/-- The instruction set (92_eei_decisions.md D1). Register fields are numbers below 32, immediates are the raw
field bits (30_encoding.md R131 to R133), `shamt` is a count that WellFormed bounds. -/
inductive Instr where
  -- shifts by immediate (41_alu.md R212 to R214)
  | sll (rt rd : Reg) (shamt : Nat)
  | srl (rt rd : Reg) (shamt : Nat)
  | sra (rt rd : Reg) (shamt : Nat)
  -- shifts by register (41_alu.md R215 to R217)
  | sllv (rs rt rd : Reg)
  | srlv (rs rt rd : Reg)
  | srav (rs rt rd : Reg)
  -- jumps through a register (44_control.md R332, R333)
  | jr (rs : Reg)
  | jalr (rs rd : Reg)
  -- traps; the 20-bit code is ignored (45_system.md R350, R351)
  | syscall (code : BitVec 20)
  | brk (code : BitVec 20)
  -- hi/lo moves, multiply, divide (42_muldiv.md R262 to R269)
  | mfhi (rd : Reg)
  | mthi (rs : Reg)
  | mflo (rd : Reg)
  | mtlo (rs : Reg)
  | mult (rs rt : Reg)
  | multu (rs rt : Reg)
  | div (rs rt : Reg)
  | divu (rs rt : Reg)
  -- register ALU (41_alu.md R202 to R211)
  | add (rs rt rd : Reg)
  | addu (rs rt rd : Reg)
  | sub (rs rt rd : Reg)
  | subu (rs rt rd : Reg)
  | and (rs rt rd : Reg)
  | or (rs rt rd : Reg)
  | xor (rs rt rd : Reg)
  | nor (rs rt rd : Reg)
  | slt (rs rt rd : Reg)
  | sltu (rs rt rd : Reg)
  -- REGIMM branches (44_control.md R326 to R329)
  | bltz (rs : Reg) (imm16 : BitVec 16)
  | bgez (rs : Reg) (imm16 : BitVec 16)
  | bltzal (rs : Reg) (imm16 : BitVec 16)
  | bgezal (rs : Reg) (imm16 : BitVec 16)
  -- jumps (44_control.md R330, R331)
  | j (imm26 : BitVec 26)
  | jal (imm26 : BitVec 26)
  -- branches (44_control.md R322 to R325)
  | beq (rs rt : Reg) (imm16 : BitVec 16)
  | bne (rs rt : Reg) (imm16 : BitVec 16)
  | blez (rs : Reg) (imm16 : BitVec 16)
  | bgtz (rs : Reg) (imm16 : BitVec 16)
  -- immediate ALU (41_alu.md R218 to R225)
  | addi (rs rt : Reg) (imm16 : BitVec 16)
  | addiu (rs rt : Reg) (imm16 : BitVec 16)
  | slti (rs rt : Reg) (imm16 : BitVec 16)
  | sltiu (rs rt : Reg) (imm16 : BitVec 16)
  | andi (rs rt : Reg) (imm16 : BitVec 16)
  | ori (rs rt : Reg) (imm16 : BitVec 16)
  | xori (rs rt : Reg) (imm16 : BitVec 16)
  | lui (rt : Reg) (imm16 : BitVec 16)
  -- COP0 (45_system.md R352 to R354); `rd` is the COP0 slot
  | mfc0 (rt rd : Reg)
  | mtc0 (rt rd : Reg)
  | rfe
  -- loads (43_loadstore.md R283 to R287, R291, R292)
  | lb (rs rt : Reg) (imm16 : BitVec 16)
  | lh (rs rt : Reg) (imm16 : BitVec 16)
  | lwl (rs rt : Reg) (imm16 : BitVec 16)
  | lw (rs rt : Reg) (imm16 : BitVec 16)
  | lbu (rs rt : Reg) (imm16 : BitVec 16)
  | lhu (rs rt : Reg) (imm16 : BitVec 16)
  | lwr (rs rt : Reg) (imm16 : BitVec 16)
  -- stores (43_loadstore.md R288 to R290, R293, R294)
  | sb (rs rt : Reg) (imm16 : BitVec 16)
  | sh (rs rt : Reg) (imm16 : BitVec 16)
  | swl (rs rt : Reg) (imm16 : BitVec 16)
  | sw (rs rt : Reg) (imm16 : BitVec 16)
  | swr (rs rt : Reg) (imm16 : BitVec 16)
  -- coprocessors 1 and 3 and their loads and stores (45_system.md R355)
  | cop1 (copFields : BitVec 26)
  | cop3 (copFields : BitVec 26)
  | lwc0 (copFields : BitVec 26)
  | lwc1 (copFields : BitVec 26)
  | lwc3 (copFields : BitVec 26)
  | swc0 (copFields : BitVec 26)
  | swc1 (copFields : BitVec 26)
  | swc3 (copFields : BitVec 26)
  -- coprocessor 2, the GTE family (45_system.md R356)
  | cop2 (copFields : BitVec 26)
  | lwc2 (copFields : BitVec 26)
  | swc2 (copFields : BitVec 26)
  deriving DecidableEq, Repr

end Sys2Proof
end

