-- ==== Sys2Proof/WellFormed.lean ====
section
/-! DEFINITION. Which instruction terms some word encodes. Register numbers and immediates are bounded by their
types; the shift amount is a count and must fit its 5-bit field (30_encoding.md R131, R134: "shamt, 0..31"). -/

namespace Sys2Proof

/-- The instruction's fields fit the fields of its row (30_encoding.md R131 to R134). -/
def Instr.wf : Instr → Bool
  | .sll _ _ shamt => shamt < 32
  | .srl _ _ shamt => shamt < 32
  | .sra _ _ shamt => shamt < 32
  | .sllv .. | .srlv .. | .srav .. => true
  | .jr .. | .jalr .. | .syscall .. | .brk .. => true
  | .mfhi .. | .mthi .. | .mflo .. | .mtlo .. => true
  | .mult .. | .multu .. | .div .. | .divu .. => true
  | .add .. | .addu .. | .sub .. | .subu .. | .and .. | .or .. | .xor .. | .nor .. | .slt .. | .sltu .. => true
  | .bltz .. | .bgez .. | .bltzal .. | .bgezal .. => true
  | .j .. | .jal .. | .beq .. | .bne .. | .blez .. | .bgtz .. => true
  | .addi .. | .addiu .. | .slti .. | .sltiu .. | .andi .. | .ori .. | .xori .. | .lui .. => true
  | .mfc0 .. | .mtc0 .. | .rfe => true
  | .lb .. | .lh .. | .lwl .. | .lw .. | .lbu .. | .lhu .. | .lwr .. => true
  | .sb .. | .sh .. | .swl .. | .sw .. | .swr .. => true
  | .cop1 .. | .cop3 .. | .lwc0 .. | .lwc1 .. | .lwc3 .. | .swc0 .. | .swc1 .. | .swc3 .. => true
  | .cop2 .. | .lwc2 .. | .swc2 .. => true

end Sys2Proof
end

