-- ==== Sys2Proof/Decode.lean ====
section
/-! DEFINITION. Bit fields, byte order, the decoder and the encoder (30_encoding.md). All opcode, funct, rt and rs
values are those of the spec's maps R136 to R141, which the spec takes from general knowledge (UNVERIFIED, log 20). -/

namespace Sys2Proof

/-! ## Bit fields and byte order -/

/-- `v[lo+len-1 : lo]` as an unsigned number (00_scope.md R11). -/
def bits (v : Word) (lo len : Nat) : Nat := v.toNat / 2 ^ lo % 2 ^ len

/-- Byte `i` of a word, byte 0 the least significant (20_memory.md R98, D2). -/
def byteOf (v : Word) (i : Nat) : Byte := BitVec.ofNat 8 (v.toNat / 2 ^ (8 * i))

/-- The word with these bytes, the first the least significant (20_memory.md R98, D2). -/
def wordOfBytes (b0 b1 b2 b3 : Byte) : Word :=
  BitVec.ofNat 32 (b0.toNat + 2 ^ 8 * b1.toNat + 2 ^ 16 * b2.toNat + 2 ^ 24 * b3.toNat)

/-- The four bytes of a word in address order, least significant first (20_memory.md R98; 10_state.md R53). -/
def wordBytes (v : Word) : List Byte := [byteOf v 0, byteOf v 1, byteOf v 2, byteOf v 3]

/-! ## Instruction fields (30_encoding.md R131 to R133) -/

/-- `rs = ins[25:21]`. -/
def rsOf (ins : Word) : Reg := Fin.ofNat 32 (bits ins 21 5)

/-- `rt = ins[20:16]`. -/
def rtOf (ins : Word) : Reg := Fin.ofNat 32 (bits ins 16 5)

/-- `rd = ins[15:11]`. -/
def rdOf (ins : Word) : Reg := Fin.ofNat 32 (bits ins 11 5)

/-- `shamt = ins[10:6]`. -/
def shamtOf (ins : Word) : Nat := bits ins 6 5

/-- `imm16 = ins[15:0]`. -/
def imm16Of (ins : Word) : BitVec 16 := BitVec.ofNat 16 (bits ins 0 16)

/-- `imm26 = ins[25:0]`, also a coprocessor word's operand bits. -/
def imm26Of (ins : Word) : BitVec 26 := BitVec.ofNat 26 (bits ins 0 26)

/-- The code field `ins[25:6]` of SYSCALL and BREAK (30_encoding.md R133). -/
def codeOf (ins : Word) : BitVec 20 := BitVec.ofNat 20 (bits ins 6 20)

/-! ## The decoder -/

/-- Why bytes are no instruction. All but `truncated` are the RI entries of 30_encoding.md R141, for which the
tick raises IllegalInstruction (45_system.md R357). -/
inductive DecodeError where
  /-- Fewer than four bytes (30_encoding.md R130: every instruction is one 32-bit word). -/
  | truncated
  /-- An RI entry of the primary map (30_encoding.md R136). -/
  | reservedOpcode (opcode : Nat)
  /-- An RI entry of the SPECIAL map (30_encoding.md R137). -/
  | reservedSpecial (funct : Nat)
  /-- A REGIMM word with another rt value (30_encoding.md R138). -/
  | reservedRegimm (rt : Nat)
  /-- A COP0 word that is not MFC0, MTC0 or RFE (30_encoding.md R139). -/
  | reservedCop0 (rs funct : Nat)
  deriving DecidableEq, Repr

/-- Opcode 0x00: `SPECIAL_MAP[ins[5:0]]` (30_encoding.md R137). -/
def decodeSpecial (ins : Word) : Except DecodeError Instr :=
  match bits ins 0 6 with
  | 0x00 => .ok (.sll (rtOf ins) (rdOf ins) (shamtOf ins))
  | 0x02 => .ok (.srl (rtOf ins) (rdOf ins) (shamtOf ins))
  | 0x03 => .ok (.sra (rtOf ins) (rdOf ins) (shamtOf ins))
  | 0x04 => .ok (.sllv (rsOf ins) (rtOf ins) (rdOf ins))
  | 0x06 => .ok (.srlv (rsOf ins) (rtOf ins) (rdOf ins))
  | 0x07 => .ok (.srav (rsOf ins) (rtOf ins) (rdOf ins))
  | 0x08 => .ok (.jr (rsOf ins))
  | 0x09 => .ok (.jalr (rsOf ins) (rdOf ins))
  | 0x0C => .ok (.syscall (codeOf ins))
  | 0x0D => .ok (.brk (codeOf ins))
  | 0x10 => .ok (.mfhi (rdOf ins))
  | 0x11 => .ok (.mthi (rsOf ins))
  | 0x12 => .ok (.mflo (rdOf ins))
  | 0x13 => .ok (.mtlo (rsOf ins))
  | 0x18 => .ok (.mult (rsOf ins) (rtOf ins))
  | 0x19 => .ok (.multu (rsOf ins) (rtOf ins))
  | 0x1A => .ok (.div (rsOf ins) (rtOf ins))
  | 0x1B => .ok (.divu (rsOf ins) (rtOf ins))
  | 0x20 => .ok (.add (rsOf ins) (rtOf ins) (rdOf ins))
  | 0x21 => .ok (.addu (rsOf ins) (rtOf ins) (rdOf ins))
  | 0x22 => .ok (.sub (rsOf ins) (rtOf ins) (rdOf ins))
  | 0x23 => .ok (.subu (rsOf ins) (rtOf ins) (rdOf ins))
  | 0x24 => .ok (.and (rsOf ins) (rtOf ins) (rdOf ins))
  | 0x25 => .ok (.or (rsOf ins) (rtOf ins) (rdOf ins))
  | 0x26 => .ok (.xor (rsOf ins) (rtOf ins) (rdOf ins))
  | 0x27 => .ok (.nor (rsOf ins) (rtOf ins) (rdOf ins))
  | 0x2A => .ok (.slt (rsOf ins) (rtOf ins) (rdOf ins))
  | 0x2B => .ok (.sltu (rsOf ins) (rtOf ins) (rdOf ins))
  | funct => .error (.reservedSpecial funct)

/-- Opcode 0x01: the REGIMM map on `rt` (30_encoding.md R138). -/
def decodeRegimm (ins : Word) : Except DecodeError Instr :=
  match bits ins 16 5 with
  | 0x00 => .ok (.bltz (rsOf ins) (imm16Of ins))
  | 0x01 => .ok (.bgez (rsOf ins) (imm16Of ins))
  | 0x10 => .ok (.bltzal (rsOf ins) (imm16Of ins))
  | 0x11 => .ok (.bgezal (rsOf ins) (imm16Of ins))
  | rt => .error (.reservedRegimm rt)

/-- Opcode 0x10: the COP0 map on `rs`, and on `funct` for RFE (30_encoding.md R139). -/
def decodeCop0 (ins : Word) : Except DecodeError Instr :=
  match bits ins 21 5, bits ins 0 6 with
  | 0x00, _ => .ok (.mfc0 (rtOf ins) (rdOf ins))
  | 0x04, _ => .ok (.mtc0 (rtOf ins) (rdOf ins))
  | 0x10, 0x10 => .ok .rfe
  | rs, funct => .error (.reservedCop0 rs funct)

/-- The decode function, total on 32-bit words (30_encoding.md R136, R140, R141). -/
def decodeWord (ins : Word) : Except DecodeError Instr :=
  match bits ins 26 6 with
  | 0x00 => decodeSpecial ins
  | 0x01 => decodeRegimm ins
  | 0x02 => .ok (.j (imm26Of ins))
  | 0x03 => .ok (.jal (imm26Of ins))
  | 0x04 => .ok (.beq (rsOf ins) (rtOf ins) (imm16Of ins))
  | 0x05 => .ok (.bne (rsOf ins) (rtOf ins) (imm16Of ins))
  | 0x06 => .ok (.blez (rsOf ins) (imm16Of ins))
  | 0x07 => .ok (.bgtz (rsOf ins) (imm16Of ins))
  | 0x08 => .ok (.addi (rsOf ins) (rtOf ins) (imm16Of ins))
  | 0x09 => .ok (.addiu (rsOf ins) (rtOf ins) (imm16Of ins))
  | 0x0A => .ok (.slti (rsOf ins) (rtOf ins) (imm16Of ins))
  | 0x0B => .ok (.sltiu (rsOf ins) (rtOf ins) (imm16Of ins))
  | 0x0C => .ok (.andi (rsOf ins) (rtOf ins) (imm16Of ins))
  | 0x0D => .ok (.ori (rsOf ins) (rtOf ins) (imm16Of ins))
  | 0x0E => .ok (.xori (rsOf ins) (rtOf ins) (imm16Of ins))
  | 0x0F => .ok (.lui (rtOf ins) (imm16Of ins))
  | 0x10 => decodeCop0 ins
  | 0x11 => .ok (.cop1 (imm26Of ins))
  | 0x12 => .ok (.cop2 (imm26Of ins))
  | 0x13 => .ok (.cop3 (imm26Of ins))
  | 0x20 => .ok (.lb (rsOf ins) (rtOf ins) (imm16Of ins))
  | 0x21 => .ok (.lh (rsOf ins) (rtOf ins) (imm16Of ins))
  | 0x22 => .ok (.lwl (rsOf ins) (rtOf ins) (imm16Of ins))
  | 0x23 => .ok (.lw (rsOf ins) (rtOf ins) (imm16Of ins))
  | 0x24 => .ok (.lbu (rsOf ins) (rtOf ins) (imm16Of ins))
  | 0x25 => .ok (.lhu (rsOf ins) (rtOf ins) (imm16Of ins))
  | 0x26 => .ok (.lwr (rsOf ins) (rtOf ins) (imm16Of ins))
  | 0x28 => .ok (.sb (rsOf ins) (rtOf ins) (imm16Of ins))
  | 0x29 => .ok (.sh (rsOf ins) (rtOf ins) (imm16Of ins))
  | 0x2A => .ok (.swl (rsOf ins) (rtOf ins) (imm16Of ins))
  | 0x2B => .ok (.sw (rsOf ins) (rtOf ins) (imm16Of ins))
  | 0x2E => .ok (.swr (rsOf ins) (rtOf ins) (imm16Of ins))
  | 0x30 => .ok (.lwc0 (imm26Of ins))
  | 0x31 => .ok (.lwc1 (imm26Of ins))
  | 0x32 => .ok (.lwc2 (imm26Of ins))
  | 0x33 => .ok (.lwc3 (imm26Of ins))
  | 0x38 => .ok (.swc0 (imm26Of ins))
  | 0x39 => .ok (.swc1 (imm26Of ins))
  | 0x3A => .ok (.swc2 (imm26Of ins))
  | 0x3B => .ok (.swc3 (imm26Of ins))
  | op => .error (.reservedOpcode op)

/-- Decode from bytes in address order: one instruction and the bytes after it (30_encoding.md R130, R144: always
four bytes, little-endian). -/
def decode : List Byte → Except DecodeError (Instr × List Byte)
  | b0 :: b1 :: b2 :: b3 :: rest => (decodeWord (wordOfBytes b0 b1 b2 b3)).map fun i => (i, rest)
  | _ => .error .truncated

/-! ## The encoder -/

/-- R-format: opcode(6) rs(5) rt(5) rd(5) shamt(5) funct(6) (30_encoding.md R131). -/
def encodeR (opcode : Nat) (rs rt rd : Reg) (shamt funct : Nat) : Word :=
  BitVec.ofNat 32 (opcode % 64 * 2 ^ 26 + rs.val * 2 ^ 21 + rt.val * 2 ^ 16 + rd.val * 2 ^ 11
    + shamt % 32 * 2 ^ 6 + funct % 64)

/-- I-format: opcode(6) rs(5) rt(5) imm16(16) (30_encoding.md R132). -/
def encodeI (opcode : Nat) (rs rt : Reg) (imm16 : BitVec 16) : Word :=
  BitVec.ofNat 32 (opcode % 64 * 2 ^ 26 + rs.val * 2 ^ 21 + rt.val * 2 ^ 16 + imm16.toNat)

/-- J-format: opcode(6) imm26(26) (30_encoding.md R133). -/
def encodeJ (opcode : Nat) (imm26 : BitVec 26) : Word :=
  BitVec.ofNat 32 (opcode % 64 * 2 ^ 26 + imm26.toNat)

/-- SYSCALL and BREAK: opcode(6) code(20) funct(6) (30_encoding.md R133). -/
def encodeCode (opcode : Nat) (code : BitVec 20) (funct : Nat) : Word :=
  BitVec.ofNat 32 (opcode % 64 * 2 ^ 26 + code.toNat * 2 ^ 6 + funct % 64)

/-- The word of an instruction, unused fields 0 (30_encoding.md R136 to R140; log 13). -/
def encode : Instr → Word
  | .sll rt rd shamt => encodeR 0x00 0 rt rd shamt 0x00
  | .srl rt rd shamt => encodeR 0x00 0 rt rd shamt 0x02
  | .sra rt rd shamt => encodeR 0x00 0 rt rd shamt 0x03
  | .sllv rs rt rd => encodeR 0x00 rs rt rd 0 0x04
  | .srlv rs rt rd => encodeR 0x00 rs rt rd 0 0x06
  | .srav rs rt rd => encodeR 0x00 rs rt rd 0 0x07
  | .jr rs => encodeR 0x00 rs 0 0 0 0x08
  | .jalr rs rd => encodeR 0x00 rs 0 rd 0 0x09
  | .syscall code => encodeCode 0x00 code 0x0C
  | .brk code => encodeCode 0x00 code 0x0D
  | .mfhi rd => encodeR 0x00 0 0 rd 0 0x10
  | .mthi rs => encodeR 0x00 rs 0 0 0 0x11
  | .mflo rd => encodeR 0x00 0 0 rd 0 0x12
  | .mtlo rs => encodeR 0x00 rs 0 0 0 0x13
  | .mult rs rt => encodeR 0x00 rs rt 0 0 0x18
  | .multu rs rt => encodeR 0x00 rs rt 0 0 0x19
  | .div rs rt => encodeR 0x00 rs rt 0 0 0x1A
  | .divu rs rt => encodeR 0x00 rs rt 0 0 0x1B
  | .add rs rt rd => encodeR 0x00 rs rt rd 0 0x20
  | .addu rs rt rd => encodeR 0x00 rs rt rd 0 0x21
  | .sub rs rt rd => encodeR 0x00 rs rt rd 0 0x22
  | .subu rs rt rd => encodeR 0x00 rs rt rd 0 0x23
  | .and rs rt rd => encodeR 0x00 rs rt rd 0 0x24
  | .or rs rt rd => encodeR 0x00 rs rt rd 0 0x25
  | .xor rs rt rd => encodeR 0x00 rs rt rd 0 0x26
  | .nor rs rt rd => encodeR 0x00 rs rt rd 0 0x27
  | .slt rs rt rd => encodeR 0x00 rs rt rd 0 0x2A
  | .sltu rs rt rd => encodeR 0x00 rs rt rd 0 0x2B
  | .bltz rs imm16 => encodeI 0x01 rs 0x00 imm16
  | .bgez rs imm16 => encodeI 0x01 rs 0x01 imm16
  | .bltzal rs imm16 => encodeI 0x01 rs 0x10 imm16
  | .bgezal rs imm16 => encodeI 0x01 rs 0x11 imm16
  | .j imm26 => encodeJ 0x02 imm26
  | .jal imm26 => encodeJ 0x03 imm26
  | .beq rs rt imm16 => encodeI 0x04 rs rt imm16
  | .bne rs rt imm16 => encodeI 0x05 rs rt imm16
  | .blez rs imm16 => encodeI 0x06 rs 0 imm16
  | .bgtz rs imm16 => encodeI 0x07 rs 0 imm16
  | .addi rs rt imm16 => encodeI 0x08 rs rt imm16
  | .addiu rs rt imm16 => encodeI 0x09 rs rt imm16
  | .slti rs rt imm16 => encodeI 0x0A rs rt imm16
  | .sltiu rs rt imm16 => encodeI 0x0B rs rt imm16
  | .andi rs rt imm16 => encodeI 0x0C rs rt imm16
  | .ori rs rt imm16 => encodeI 0x0D rs rt imm16
  | .xori rs rt imm16 => encodeI 0x0E rs rt imm16
  | .lui rt imm16 => encodeI 0x0F 0 rt imm16
  | .mfc0 rt rd => encodeR 0x10 0x00 rt rd 0 0
  | .mtc0 rt rd => encodeR 0x10 0x04 rt rd 0 0
  | .rfe => encodeR 0x10 0x10 0 0 0 0x10
  | .lb rs rt imm16 => encodeI 0x20 rs rt imm16
  | .lh rs rt imm16 => encodeI 0x21 rs rt imm16
  | .lwl rs rt imm16 => encodeI 0x22 rs rt imm16
  | .lw rs rt imm16 => encodeI 0x23 rs rt imm16
  | .lbu rs rt imm16 => encodeI 0x24 rs rt imm16
  | .lhu rs rt imm16 => encodeI 0x25 rs rt imm16
  | .lwr rs rt imm16 => encodeI 0x26 rs rt imm16
  | .sb rs rt imm16 => encodeI 0x28 rs rt imm16
  | .sh rs rt imm16 => encodeI 0x29 rs rt imm16
  | .swl rs rt imm16 => encodeI 0x2A rs rt imm16
  | .sw rs rt imm16 => encodeI 0x2B rs rt imm16
  | .swr rs rt imm16 => encodeI 0x2E rs rt imm16
  | .cop1 copFields => encodeJ 0x11 copFields
  | .cop3 copFields => encodeJ 0x13 copFields
  | .lwc0 copFields => encodeJ 0x30 copFields
  | .lwc1 copFields => encodeJ 0x31 copFields
  | .lwc3 copFields => encodeJ 0x33 copFields
  | .swc0 copFields => encodeJ 0x38 copFields
  | .swc1 copFields => encodeJ 0x39 copFields
  | .swc3 copFields => encodeJ 0x3B copFields
  | .cop2 copFields => encodeJ 0x12 copFields
  | .lwc2 copFields => encodeJ 0x32 copFields
  | .swc2 copFields => encodeJ 0x3A copFields

/-! ## The rows of spec/opcode_table.json -/

/-- The `mask` of the instruction's row: the bits that select it (30_encoding.md R142). -/
def Instr.rowMask : Instr → Word
  | .sll .. | .srl .. | .sra .. | .sllv .. | .srlv .. | .srav .. | .jr .. | .jalr .. => 0xFC00003F
  | .syscall .. | .brk .. | .mfhi .. | .mthi .. | .mflo .. | .mtlo .. => 0xFC00003F
  | .mult .. | .multu .. | .div .. | .divu .. => 0xFC00003F
  | .add .. | .addu .. | .sub .. | .subu .. | .and .. | .or .. | .xor .. | .nor .. | .slt .. | .sltu .. => 0xFC00003F
  | .bltz .. | .bgez .. | .bltzal .. | .bgezal .. => 0xFC1F0000
  | .mfc0 .. | .mtc0 .. => 0xFFE00000
  | .rfe => 0xFFE0003F
  | .j .. | .jal .. | .beq .. | .bne .. | .blez .. | .bgtz .. => 0xFC000000
  | .addi .. | .addiu .. | .slti .. | .sltiu .. | .andi .. | .ori .. | .xori .. | .lui .. => 0xFC000000
  | .lb .. | .lh .. | .lwl .. | .lw .. | .lbu .. | .lhu .. | .lwr .. => 0xFC000000
  | .sb .. | .sh .. | .swl .. | .sw .. | .swr .. => 0xFC000000
  | .cop1 .. | .cop3 .. | .lwc0 .. | .lwc1 .. | .lwc3 .. | .swc0 .. | .swc1 .. | .swc3 .. => 0xFC000000
  | .cop2 .. | .lwc2 .. | .swc2 .. => 0xFC000000

/-- The `match` of the instruction's row (30_encoding.md R142). -/
def Instr.rowMatch : Instr → Word
  | .sll .. => 0x00000000
  | .srl .. => 0x00000002
  | .sra .. => 0x00000003
  | .sllv .. => 0x00000004
  | .srlv .. => 0x00000006
  | .srav .. => 0x00000007
  | .jr .. => 0x00000008
  | .jalr .. => 0x00000009
  | .syscall .. => 0x0000000C
  | .brk .. => 0x0000000D
  | .mfhi .. => 0x00000010
  | .mthi .. => 0x00000011
  | .mflo .. => 0x00000012
  | .mtlo .. => 0x00000013
  | .mult .. => 0x00000018
  | .multu .. => 0x00000019
  | .div .. => 0x0000001A
  | .divu .. => 0x0000001B
  | .add .. => 0x00000020
  | .addu .. => 0x00000021
  | .sub .. => 0x00000022
  | .subu .. => 0x00000023
  | .and .. => 0x00000024
  | .or .. => 0x00000025
  | .xor .. => 0x00000026
  | .nor .. => 0x00000027
  | .slt .. => 0x0000002A
  | .sltu .. => 0x0000002B
  | .bltz .. => 0x04000000
  | .bgez .. => 0x04010000
  | .bltzal .. => 0x04100000
  | .bgezal .. => 0x04110000
  | .j .. => 0x08000000
  | .jal .. => 0x0C000000
  | .beq .. => 0x10000000
  | .bne .. => 0x14000000
  | .blez .. => 0x18000000
  | .bgtz .. => 0x1C000000
  | .addi .. => 0x20000000
  | .addiu .. => 0x24000000
  | .slti .. => 0x28000000
  | .sltiu .. => 0x2C000000
  | .andi .. => 0x30000000
  | .ori .. => 0x34000000
  | .xori .. => 0x38000000
  | .lui .. => 0x3C000000
  | .mfc0 .. => 0x40000000
  | .mtc0 .. => 0x40800000
  | .rfe => 0x42000010
  | .lb .. => 0x80000000
  | .lh .. => 0x84000000
  | .lwl .. => 0x88000000
  | .lw .. => 0x8C000000
  | .lbu .. => 0x90000000
  | .lhu .. => 0x94000000
  | .lwr .. => 0x98000000
  | .sb .. => 0xA0000000
  | .sh .. => 0xA4000000
  | .swl .. => 0xA8000000
  | .sw .. => 0xAC000000
  | .swr .. => 0xB8000000
  | .cop1 .. => 0x44000000
  | .cop3 .. => 0x4C000000
  | .lwc0 .. => 0xC0000000
  | .lwc1 .. => 0xC4000000
  | .lwc3 .. => 0xCC000000
  | .swc0 .. => 0xE0000000
  | .swc1 .. => 0xE4000000
  | .swc3 .. => 0xEC000000
  | .cop2 .. => 0x48000000
  | .lwc2 .. => 0xC8000000
  | .swc2 .. => 0xE8000000

/-- The bits of a word that are fields of the instruction's row (spec/opcode_table.json `fields`): with `rowMask`,
all that decoding may look at (30_encoding.md R142). -/
def Instr.rowFields : Instr → Word
  | .sll .. | .srl .. | .sra .. => 0x001FFFC0
  | .sllv .. | .srlv .. | .srav .. => 0x03FFF800
  | .jr .. | .mthi .. | .mtlo .. => 0x03E00000
  | .jalr .. => 0x03E0F800
  | .syscall .. | .brk .. => 0x03FFFFC0
  | .mfhi .. | .mflo .. => 0x0000F800
  | .mult .. | .multu .. | .div .. | .divu .. => 0x03FF0000
  | .add .. | .addu .. | .sub .. | .subu .. | .and .. | .or .. | .xor .. | .nor .. | .slt .. | .sltu .. => 0x03FFF800
  | .bltz .. | .bgez .. | .bltzal .. | .bgezal .. | .blez .. | .bgtz .. => 0x03E0FFFF
  | .mfc0 .. | .mtc0 .. => 0x001FF800
  | .rfe => 0x00000000
  | .lui .. => 0x001FFFFF
  | .j .. | .jal .. | .beq .. | .bne .. => 0x03FFFFFF
  | .addi .. | .addiu .. | .slti .. | .sltiu .. | .andi .. | .ori .. | .xori .. => 0x03FFFFFF
  | .lb .. | .lh .. | .lwl .. | .lw .. | .lbu .. | .lhu .. | .lwr .. => 0x03FFFFFF
  | .sb .. | .sh .. | .swl .. | .sw .. | .swr .. => 0x03FFFFFF
  | .cop1 .. | .cop3 .. | .lwc0 .. | .lwc1 .. | .lwc3 .. | .swc0 .. | .swc1 .. | .swc3 .. => 0x03FFFFFF
  | .cop2 .. | .lwc2 .. | .swc2 .. => 0x03FFFFFF

/-! ## The host's reading of a table word -/

/-- The word that `w` gives an instruction of `nbits` table bits: the bits above `nbits` are 0, and an instruction
has 32 bits (30_encoding.md R130). -/
def tableWord (nbits w : Nat) : Word := BitVec.ofNat 32 (w % 2 ^ nbits)

/-- The instruction the decoder reads from those bits, laid out in memory as four bytes, least significant first. -/
def decodeTableWord (nbits w : Nat) : Option Instr :=
  match decode (wordBytes (tableWord nbits w)) with
  | .ok (i, _) => some i
  | .error _ => none

end Sys2Proof
end

