-- ==== Sys2Proof/Machine/Memory.lean ====
section
/-! DEFINITION. The bytes of the memory devices and the ROM (20_memory.md R98, R99): a list of (storage address,
byte) pairs in one canonical form, and little-endian access to it. -/

namespace Sys2Proof.Machine

/-- The contents of every memory device and ROM, by storage address. -/
abbrev Memory := List Host.Cell

/-- The byte at storage address `a`; an unlisted address reads as `Config.unlistedByte` (log 1). -/
def Memory.read : Memory → Nat → Byte
  | [], _ => Config.unlistedByte
  | (k, b) :: rest, a => if k = a then b else Memory.read rest a

/-- Set the byte at storage address `a`, keeping the canonical form: rising addresses, no entry equal to what an
unlisted address reads as. -/
def Memory.write : Memory → Nat → Byte → Memory
  | [], a, v => if v = Config.unlistedByte then [] else [(a, v)]
  | (k, b) :: rest, a, v =>
    if a < k then
      if v = Config.unlistedByte then (k, b) :: rest else (a, v) :: (k, b) :: rest
    else if a = k then
      if v = Config.unlistedByte then rest else (a, v) :: rest
    else (k, b) :: Memory.write rest a v

/-- Every address of the list is above `lo`'s bound, strictly rising, and no entry is redundant. -/
def Memory.wfFrom : Nat → Memory → Bool
  | _, [] => true
  | lo, (k, b) :: rest => decide (lo ≤ k) && decide (b ≠ Config.unlistedByte) && Memory.wfFrom (k + 1) rest

/-- The canonical form: addresses strictly rising, no entry equal to what an unlisted address reads as. -/
def Memory.wf (m : Memory) : Bool := Memory.wfFrom 0 m

/-- How many bytes an access of this width moves (20_memory.md R100). -/
def widthBytes : Width → Nat
  | .byte => 1
  | .half => 2
  | .word => 4

/-- Little-endian read of `w` at storage address `a`, zero-padded to 32 bits (20_memory.md R98; 00_scope.md R14). -/
def Memory.readLE (m : Memory) (a : Nat) : Width → Word
  | .byte => wordOfBytes (m.read a) 0 0 0
  | .half => wordOfBytes (m.read a) (m.read (a + 1)) 0 0
  | .word => wordOfBytes (m.read a) (m.read (a + 1)) (m.read (a + 2)) (m.read (a + 3))

/-- Little-endian write of the low bytes of `v` at storage address `a` (20_memory.md R98; 00_scope.md R14). -/
def Memory.writeLE (m : Memory) (a : Nat) (v : Word) : Width → Memory
  | .byte => m.write a (byteOf v 0)
  | .half => (m.write a (byteOf v 0)).write (a + 1) (byteOf v 1)
  | .word =>
    (((m.write a (byteOf v 0)).write (a + 1) (byteOf v 1)).write (a + 2) (byteOf v 2)).write (a + 3) (byteOf v 3)

/-- Place a list of bytes from storage address `a` on: how the host loads `init_ram`, `init_scratchpad` or
`bios_image` (00_scope.md R10, D15). -/
def Memory.load (m : Memory) (a : Nat) : List Byte → Memory
  | [] => m
  | b :: rest => Memory.load (m.write a b) (a + 1) rest

end Sys2Proof.Machine
end

