-- ==== Sys2Proof/Machine/Platform.lean ====
section
/-! DEFINITION. The address translator and the bus's routing (20_memory.md sections 2 to 4), which read no state but
the binding list. -/

namespace Sys2Proof.Machine

/-- The mask table, by the top three address bits (20_memory.md R81). -/
def segmentMask : Nat → Word
  | 4 => 0x7FFFFFFF
  | 5 => 0x1FFFFFFF
  | _ => 0xFFFFFFFF

/-- `translate(a)`: "No failure modes; pure function." (20_memory.md R81). -/
def translateAddr (a : Word) : Word := segmentMask (bits a 29 3) &&& a

/-- The range test: (p - start) mod 2^32 < size (20_memory.md R87). -/
def bindingContains (b : Binding) (p : Word) : Bool := decide ((p - b.start).toNat < b.size.toNat)

/-- First match in registration order (20_memory.md R88, R89). -/
def route : List Binding → Word → Option Binding
  | [], _ => none
  | b :: rest, p => if bindingContains b p then some b else route rest p

/-- The capability set's bit for an access kind and width (20_memory.md R85). -/
def capsAllow (c : Caps) : AccessKind → Width → Bool
  | .fetch, .byte => c.fetch8
  | .fetch, .half => c.fetch16
  | .fetch, .word => c.fetch32
  | .store, .byte => c.store8
  | .store, .half => c.store16
  | .store, .word => c.store32

/-- Whether the binding offers the access: its capability set does, and a ROM has no store functions whatever the
set says (20_memory.md R90, R99; log 10). -/
def offers (b : Binding) (k : AccessKind) (w : Width) : Bool :=
  match b.device, k with
  | .rom _, .store => false
  | .rom _, .fetch => capsAllow b.caps k w
  | .memory _, _ => capsAllow b.caps k w
  | .opaqueUnit _, _ => capsAllow b.caps k w

/-- All six width functions. -/
def allCaps : Caps :=
  { fetch8 := true, fetch16 := true, fetch32 := true, store8 := true, store16 := true, store32 := true }

/-- fetch8, fetch16, fetch32 only. -/
def fetchCaps : Caps :=
  { fetch8 := true, fetch16 := true, fetch32 := true, store8 := false, store16 := false, store32 := false }

/-- The hardware-register block (20_memory.md R94, R95). -/
def hardregBinding : Binding :=
  { start := 0x1F801000, size := 0x2000, device := .opaqueUnit 0, caps := allCaps }

/-- RAM, 2 MiB at 0 (20_memory.md R94, R95). -/
def ramBinding : Binding :=
  { start := 0x00000000, size := 0x200000, device := .memory 0x00000000, caps := allCaps }

/-- The scratchpad, 1 KiB (20_memory.md R94, R95). -/
def scratchpadBinding : Binding :=
  { start := 0x1F800000, size := 0x400, device := .memory 0x1F800000, caps := allCaps }

/-- Expansion region 1, 8 MiB (20_memory.md R94, R95). -/
def expansion1Binding : Binding :=
  { start := 0x1F000000, size := 0x800000, device := .opaqueUnit 1, caps := allCaps }

/-- The BIOS ROM, 512 KiB (20_memory.md R94, R95, R99). -/
def biosBinding : Binding :=
  { start := 0x1FC00000, size := 0x80000, device := .rom 0x1FC00000, caps := fetchCaps }

/-- The default platform in registration order (20_memory.md R95). -/
def defaultPlatform : List Binding :=
  [hardregBinding, ramBinding, scratchpadBinding, expansion1Binding, biosBinding]

/-- Start and size are multiples of 4, so that no aligned access straddles a range end (92_eei_decisions.md D13;
log 9). -/
def bindingAligned (b : Binding) : Bool := decide (bits b.start 0 2 = 0) && decide (bits b.size 0 2 = 0)

/-- Every binding is aligned (D13). -/
def platformAligned (bs : List Binding) : Bool := bs.all bindingAligned

end Sys2Proof.Machine
end

