-- ==== Sys2Proof/Machine/State.lean ====
section
/-! DEFINITION. The state of the block (10_state.md), the reasons a step can stop, and the state after reset. -/

namespace Sys2Proof.Machine

/-- The run state: "only `running` advances" (10_state.md R46). -/
inductive RunState where
  | sleeping
  | running
  | halted
  deriving DecidableEq, Repr

/-- The reasons of a host fault (40_tick_pipeline.md R180). -/
inductive HostFault where
  /-- No binding contains the physical address (20_memory.md R89, R96). -/
  | unmapped (paddr : Word)
  /-- A misaligned access reached the bus (20_memory.md R91); the CPU never causes it (60_exceptions.md R402). -/
  | busMisaligned (addr : Word) (width : Width)
  /-- The binding has no function of that kind and width (20_memory.md R90). -/
  | unsupportedWidth (binding : Binding) (kind : AccessKind) (width : Width)
  /-- A COP2-family word with SR.CU2 = 1 (45_system.md R356). -/
  | unimplemented (ins : Word)
  deriving DecidableEq, Repr

/-- How an instruction or a fetch can stop. -/
inductive Fault where
  /-- A host fault (40_tick_pipeline.md R180), raised by the bus (Ops.busFetch, Ops.busStore) and by COP2, LWC2 and
  SWC2 with SR.CU2 = 1. `history` is the record of device accesses at that point, which the fault does not undo
  (D25; log 5). SAFE: the spec stops there too, and the tick then leaves the halted state (log 4). -/
  | hostFault (reason : HostFault) (history : List DeviceEvent)
  deriving DecidableEq, Repr

/-- Why an instruction has no meaning here. -/
inductive Refusal where
  /-- An instruction not modelled yet, raised by exec's arm only; no arm does so now. SAFE: nothing is claimed. -/
  | notModelled (mnemonic : String)
  deriving DecidableEq, Repr

/-- A bank of 32 general registers, or the 32 COP0 slots (10_state.md R30, R41). -/
abbrev RegFile := Vector Word 32

/-- The whole state (10_state.md R30 to R48; 20_memory.md R85, R98, R102). -/
structure State where
  /-- The in bank: what instructions read (R30). -/
  inRegs : RegFile
  /-- The out bank: what instructions write (R30). -/
  outRegs : RegFile
  /-- (R35) -/
  hi : Word
  /-- (R35) -/
  lo : Word
  /-- Address of the instruction being decoded (R38). -/
  cpc : Word
  /-- Address of the instruction to run next (R36). -/
  pc : Word
  /-- The address after that (R37). -/
  npc : Word
  /-- Register of the pending load, 0 for none (R40). -/
  loadDelayTarget : Reg
  /-- Value of the pending load (R40). -/
  loadDelayValue : Word
  /-- The 32 COP0 slots (R41, R42). -/
  c0regs : RegFile
  /-- (R46) -/
  runState : RunState
  /-- The reason of the last host fault (40_tick_pipeline.md R180; log 6). -/
  haltReason : Option HostFault
  /-- The debugger's set of addresses, strictly rising (R47; log 15). -/
  breakpoints : List Word
  /-- (R48) -/
  instrExecCnt : Word
  /-- The bus's binding list in registration order (20_memory.md R85; log 8). -/
  platform : List Binding
  /-- The bytes of the memory devices and the ROM (20_memory.md R98, R99). -/
  mem : Memory
  /-- The accesses to opaque devices so far, oldest first (20_memory.md R102; log 2, log 3). -/
  devHistory : List DeviceEvent
  deriving DecidableEq, Repr

/-- What a meaning answers. -/
abbrev Result := Host.Outcome State Fault Refusal

/-- The machine right after reset (10_state.md R52; 70_reset_and_hazards.md R430): sleeping, at the BIOS entry point,
nothing listed in memory. -/
def State.reset : State where
  inRegs := Vector.replicate 32 0
  outRegs := Vector.replicate 32 0
  hi := 0
  lo := 0
  cpc := 0
  pc := 0xBFC00000
  npc := 0xBFC00004
  loadDelayTarget := 0
  loadDelayValue := 0
  c0regs := (Vector.replicate 32 0).set 12 Config.resetSr
  runState := .sleeping
  haltReason := none
  breakpoints := []
  instrExecCnt := 0
  platform := defaultPlatform
  mem := []
  devHistory := []

end Sys2Proof.Machine
end

