-- ==== Sys2Proof/Machine/Flags.lean ====
section
/-! DEFINITION. The block has no flags (10_state.md R49). What takes their place: the overflow conditions of ADD,
ADDI and SUB (41_alu.md R200), and the conditions that set-on-less-than and the branches compute from registers. -/

namespace Sys2Proof.Machine

/-- ADD and ADDI overflow: a[31] = b[31] and (a + b)[31] ≠ a[31] (41_alu.md R200, R202). -/
def addOverflows (a b : Word) : Bool := a.msb == b.msb && (a + b).msb != a.msb

/-- SUB overflow: a[31] ≠ b[31] and (a - b)[31] ≠ a[31] (41_alu.md R200, R204; C2). -/
def subOverflows (a b : Word) : Bool := a.msb != b.msb && (a - b).msb != a.msb

/-- 1 if the condition holds, else 0 (41_alu.md R201). -/
def boolWord (c : Bool) : Word := if c then 1 else 0

/-- s32(a) < s32(b) (41_alu.md R210). -/
def ltSigned (a b : Word) : Bool := decide (a.toInt < b.toInt)

/-- u32(a) < u32(b) (41_alu.md R211). -/
def ltUnsigned (a b : Word) : Bool := decide (a.toNat < b.toNat)

end Sys2Proof.Machine
end

