-- ==== Sys2Proof/Machine/Operands.lean ====
section
/-! DEFINITION. Operand assembly (30_encoding.md R134), effective addresses (43_loadstore.md R280), the byte-lane
merges (R291 to R294), and the multiply and divide results (42_muldiv.md R260 to R265). -/

namespace Sys2Proof.Machine

/-! ## Extensions and immediates -/

/-- `sext_16` (00_scope.md R12). -/
def sext16 (v : BitVec 16) : Word := v.signExtend 32

/-- `zext_16` (00_scope.md R12). -/
def zext16 (v : BitVec 16) : Word := v.setWidth 32

/-- LUI's operand: imm16 << 16 (30_encoding.md R134). -/
def upper16 (v : BitVec 16) : Word := v.setWidth 32 <<< 16

/-- `sext_8` of the low byte of a value read (43_loadstore.md R283). -/
def sextByte (v : Word) : Word := (v.setWidth 8).signExtend 32

/-- `zext_8` of the low byte of a value read (43_loadstore.md R284). -/
def zextByte (v : Word) : Word := (v.setWidth 8).setWidth 32

/-- `sext_16` of the low halfword of a value read (43_loadstore.md R285). -/
def sextHalf (v : Word) : Word := (v.setWidth 16).signExtend 32

/-- `zext_16` of the low halfword of a value read (43_loadstore.md R286). -/
def zextHalf (v : Word) : Word := (v.setWidth 16).setWidth 32

/-- The shift amount x[rs][4:0] of SLLV, SRLV, SRAV (30_encoding.md R134). -/
def shiftAmount (v : Word) : Nat := bits v 0 5

/-! ## Addresses and targets -/

/-- base + sext_16(imm16) (43_loadstore.md R280). -/
def effectiveAddress (base : Word) (imm16 : BitVec 16) : Word := base + sext16 imm16

/-- Whether an access of this width at `a` is misaligned (20_memory.md R97). -/
def misaligned (a : Word) : Width → Bool
  | .byte => false
  | .half => decide (bits a 0 1 ≠ 0)
  | .word => decide (bits a 0 2 ≠ 0)

/-- The aligned containing word: ea & 0xFFFFFFFC (43_loadstore.md R291). -/
def alignWord (a : Word) : Word := a &&& 0xFFFFFFFC

/-- `cpu_branch`'s new npc: npc + (sext_16(imm16) << 2) - 4 (44_control.md R320). -/
def branchTarget (npc : Word) (imm16 : BitVec 16) : Word := npc + (sext16 imm16 <<< 2) - 4

/-- J and JAL's new npc: (npc & 0xF0000000) | (imm26 << 2) (44_control.md R330). -/
def jumpTarget (npc : Word) (imm26 : BitVec 26) : Word := (npc &&& 0xF0000000) ||| (imm26.setWidth 32 <<< 2)

/-! ## Byte-lane merges; `lane` is ea[1:0] -/

/-- LWL's merge of the memory word `w` into `cur` (43_loadstore.md R291). -/
def mergeLwl (lane : Nat) (w cur : Word) : Word :=
  match lane with
  | 0 => (cur &&& 0x00FFFFFF) ||| (w <<< 24)
  | 1 => (cur &&& 0x0000FFFF) ||| (w <<< 16)
  | 2 => (cur &&& 0x000000FF) ||| (w <<< 8)
  | _ => w

/-- LWR's merge of the memory word `w` into `cur` (43_loadstore.md R292). -/
def mergeLwr (lane : Nat) (w cur : Word) : Word :=
  match lane with
  | 0 => w
  | 1 => (cur &&& 0xFF000000) ||| (w >>> 8)
  | 2 => (cur &&& 0xFFFF0000) ||| (w >>> 16)
  | _ => (cur &&& 0xFFFFFF00) ||| (w >>> 24)

/-- SWL's merge of the register `v` into the memory word `w` (43_loadstore.md R293). -/
def mergeSwl (lane : Nat) (w v : Word) : Word :=
  match lane with
  | 0 => (w &&& 0xFFFFFF00) ||| (v >>> 24)
  | 1 => (w &&& 0xFFFF0000) ||| (v >>> 16)
  | 2 => (w &&& 0xFF000000) ||| (v >>> 8)
  | _ => v

/-- SWR's merge of the register `v` into the memory word `w` (43_loadstore.md R294). -/
def mergeSwr (lane : Nat) (w v : Word) : Word :=
  match lane with
  | 0 => v
  | 1 => (w &&& 0x000000FF) ||| (v <<< 8)
  | 2 => (w &&& 0x0000FFFF) ||| (v <<< 16)
  | _ => (w &&& 0x00FFFFFF) ||| (v <<< 24)

/-! ## Multiply and divide: pairs are (hi, lo) -/

/-- hi = p[63:32], lo = p[31:0] (42_muldiv.md R260). -/
def splitProduct (p : BitVec 64) : Word × Word := (p.extractLsb' 32 32, p.extractLsb' 0 32)

/-- MULT: the exact signed product (42_muldiv.md R262). -/
def multSigned (a b : Word) : Word × Word := splitProduct (BitVec.ofInt 64 (a.toInt * b.toInt))

/-- MULTU: the exact unsigned product (42_muldiv.md R263). -/
def multUnsigned (a b : Word) : Word × Word := splitProduct (BitVec.ofNat 64 (a.toNat * b.toNat))

/-- DIV, every case (42_muldiv.md R261, R264). -/
def divSigned (n d : Word) : Word × Word :=
  if d = 0 then (n, if n.toInt < 0 then 0x00000001 else 0xFFFFFFFF)
  else if n = 0x80000000 ∧ d = 0xFFFFFFFF then (0, 0x80000000)
  else
    let q := n.toInt.tdiv d.toInt
    (BitVec.ofInt 32 (n.toInt - d.toInt * q), BitVec.ofInt 32 q)

/-- DIVU, every case (42_muldiv.md R261, R265). -/
def divUnsigned (n d : Word) : Word × Word :=
  if d = 0 then (n, 0xFFFFFFFF)
  else (BitVec.ofNat 32 (n.toNat % d.toNat), BitVec.ofNat 32 (n.toNat / d.toNat))

end Sys2Proof.Machine
end

