-- ==== Sys2Proof/Machine/Ops.lean ====
section
/-! DEFINITION. The named operations over registers and memory: the register primitives (40_tick_pipeline.md R176 to
R178), the bus (20_memory.md R92, R93), taking an exception (60_exceptions.md R382) and the pop of RFE beside it, the
shared bodies of the meanings, and the steps of the tick other than step 5 (40_tick_pipeline.md R171). -/

namespace Sys2Proof.Machine

/-! ## Registers -/

/-- `get_reg(i)`: reads in_regs (40_tick_pipeline.md R176). -/
def State.getReg (s : State) (i : Reg) : Word := s.inRegs[i.val]

/-- Entry `i` of the out bank. -/
def State.getOut (s : State) (i : Reg) : Word := s.outRegs[i.val]

/-- Write one entry of a bank, then force entry 0 to 0 (40_tick_pipeline.md R175, R177; 10_state.md R31). -/
def writeBank (f : RegFile) (i : Reg) (v : Word) : RegFile := (f.set i.val v).set 0 0

/-- `set_reg(i, v)`: writes out_regs, visible from the next tick (40_tick_pipeline.md R177). -/
def State.setReg (s : State) (i : Reg) (v : Word) : State := { s with outRegs := writeBank s.outRegs i v }

/-- `set_reg_delayed(i, v)`: stages the pending load (40_tick_pipeline.md R178). -/
def State.setRegDelayed (s : State) (i : Reg) (v : Word) : State :=
  { s with loadDelayTarget := i, loadDelayValue := v }

/-- `hi <- v` (10_state.md R35). -/
def State.setHi (s : State) (v : Word) : State := { s with hi := v }

/-- `lo <- v` (10_state.md R35). -/
def State.setLo (s : State) (v : Word) : State := { s with lo := v }

/-- `npc <- t`, the branch and jump primitive (00_scope.md R13). -/
def State.setNpc (s : State) (t : Word) : State := { s with npc := t }

/-- COP0 slot `n` (10_state.md R41). -/
def State.getC0 (s : State) (n : Reg) : Word := s.c0regs[n.val]

/-- `c0[n] <- v`, all 32 bits of any slot (10_state.md R41, D9). -/
def State.setC0 (s : State) (n : Reg) (v : Word) : State := { s with c0regs := s.c0regs.set n.val v }

/-- Replace the memory contents. -/
def State.setMem (s : State) (m : Memory) : State := { s with mem := m }

/-- Append an access to the record of device accesses (20_memory.md R102). -/
def State.recordEvent (s : State) (e : DeviceEvent) : State := { s with devHistory := s.devHistory ++ [e] }

/-! ## SR, Cause, EPC (10_state.md R42 to R45) -/

/-- COP0 slot of SR (10_state.md R42, D8). -/
def srSlot : Reg := 12

/-- COP0 slot of Cause (10_state.md R42, D8). -/
def causeSlot : Reg := 13

/-- COP0 slot of EPC (10_state.md R42, D8). -/
def epcSlot : Reg := 14

/-- SR[16], cache isolate (10_state.md R43). -/
def State.isolate (s : State) : Bool := decide (bits (s.getC0 srSlot) 16 1 = 1)

/-- SR[22], BEV (10_state.md R43). -/
def State.bev (s : State) : Bool := decide (bits (s.getC0 srSlot) 22 1 = 1)

/-- SR[30], CU2 (10_state.md R43). -/
def State.cu2 (s : State) : Bool := decide (bits (s.getC0 srSlot) 30 1 = 1)

/-! ## Taking an exception and returning from one -/

/-- The architectural causes (60_exceptions.md R381). -/
inductive Cause where
  | addressErrorLoad
  | addressErrorStore
  | syscall
  | break_
  | illegalInstruction
  | coprocessorUnusable
  | overflow
  deriving DecidableEq, Repr

/-- The cause codes (60_exceptions.md R381, D40). -/
def causeCode : Cause → Word
  | .addressErrorLoad => 4
  | .addressErrorStore => 5
  | .syscall => 8
  | .break_ => 9
  | .illegalInstruction => 10
  | .coprocessorUnusable => 11
  | .overflow => 12

/-- The handler address (60_exceptions.md R383). -/
def exceptionVector (bev : Bool) : Word := if bev then 0xBFC00180 else 0x80000080

/-- The mode-stack push (60_exceptions.md R384). -/
def pushModeStack (sr : Word) : Word := (sr &&& 0xFFFFFFC0) ||| ((sr <<< 2) &&& 0x3F)

/-- RFE's pop: SR[3:0] := SR[5:2], SR[5:4] unchanged (45_system.md R354, D42). -/
def popModeStack (sr : Word) : Word := (sr &&& ~~~(0x0000000F : Word)) ||| ((sr >>> 2) &&& 0x0000000F)

/-- The delay-slot test: (pc - cpc) mod 2^32 ≠ 4 (60_exceptions.md R386). -/
def State.inDelaySlot (s : State) : Bool := decide (s.pc - s.cpc ≠ 4)

/-- Cause after the exception: the whole register is written (60_exceptions.md R385, R386). -/
def causeWord (c : Cause) (delaySlot : Bool) : Word :=
  if delaySlot then (causeCode c <<< 2) ||| 0x80000000 else causeCode c <<< 2

/-- EPC after the exception (60_exceptions.md R386). -/
def epcWord (cpc : Word) (delaySlot : Bool) : Word := if delaySlot then cpc - 4 else cpc

/-- `throw_exception` (60_exceptions.md R382): the one way into a handler. -/
def throwException (c : Cause) (s : State) : State :=
  { s with
    c0regs := ((s.c0regs.set srSlot.val (pushModeStack (s.getC0 srSlot))).set causeSlot.val
      (causeWord c s.inDelaySlot)).set epcSlot.val (epcWord s.cpc s.inDelaySlot)
    pc := exceptionVector s.bev
    npc := exceptionVector s.bev + 4 }

/-- `raise E`: the exception is the instruction's only effect (00_scope.md R15; 60_exceptions.md R388). -/
def raise (c : Cause) (s : State) : Result := .next (throwException c s)

/-- "RFE pops the mode stack (inverse shift) without altering PC" (45_system.md R354). -/
def State.popMode (s : State) : State := s.setC0 srSlot (popModeStack (s.getC0 srSlot))

/-! ## The bus -/

/-- A draw of the access's width, zero-padded (20_memory.md R102). -/
def drawValue (history : List DeviceEvent) (b : Binding) (offset : Word) : Width → Word
  | .byte => zextByte (Config.draw history b offset .byte)
  | .half => zextHalf (Config.draw history b offset .half)
  | .word => Config.draw history b offset .word

/-- `device.fetch_w(offset)` (20_memory.md R98, R99, R102). -/
def deviceFetch (b : Binding) (offset : Word) (w : Width) (s : State) : Word × State :=
  match b.device with
  | .memory base => (s.mem.readLE (base + offset.toNat) w, s)
  | .rom base => (s.mem.readLE (base + offset.toNat) w, s)
  | .opaqueUnit _ => (drawValue s.devHistory b offset w, s.recordEvent (.fetch b offset w))

/-- The value a store of this width carries: `v[8n-1:0]` (20_memory.md R101). -/
def storeValue (v : Word) : Width → Word
  | .byte => zextByte v
  | .half => zextHalf v
  | .word => v

/-- `device.store_w(offset, v)` (20_memory.md R98, R102). A ROM has no store functions, so `offers` keeps the bus from
this case; it changes nothing (20_memory.md R99). -/
def deviceStore (b : Binding) (offset : Word) (w : Width) (v : Word) (s : State) : State :=
  match b.device with
  | .memory base => s.setMem (s.mem.writeLE (base + offset.toNat) v w)
  | .rom _ => s
  | .opaqueUnit _ => s.recordEvent (.store b offset w (storeValue v w))

/-- Alignment check, routing and width dispatch, shared by bus fetch and bus store (20_memory.md R89 to R93). -/
def busRoute (a : Word) (k : AccessKind) (w : Width) (s : State) : Except HostFault Binding :=
  if misaligned (translateAddr a) w then .error (.busMisaligned a w)
  else
    match route s.platform (translateAddr a) with
    | none => .error (.unmapped (translateAddr a))
    | some b => if offers b k w then .ok b else .error (.unsupportedWidth b k w)

/-- `bus_fetch(a, w)`, zero-padded to 32 bits (20_memory.md R92, R100). -/
def busFetch (a : Word) (w : Width) (s : State) : Except Fault (Word × State) :=
  match busRoute a .fetch w s with
  | .error r => .error (.hostFault r s.devHistory)
  | .ok b => .ok (deviceFetch b (translateAddr a - b.start) w s)

/-- `bus_store(a, w, v)` (20_memory.md R93, R101). -/
def busStore (a : Word) (w : Width) (v : Word) (s : State) : Except Fault State :=
  match busRoute a .store w s with
  | .error r => .error (.hostFault r s.devHistory)
  | .ok b => .ok (deviceStore b (translateAddr a - b.start) w v s)

/-- The storage address behind a logical address: where a memory device or ROM keeps its byte; none for an opaque
device or an unmapped address. -/
def storageAddress (platform : List Binding) (a : Word) : Option Nat :=
  match route platform (translateAddr a) with
  | none => none
  | some b =>
    match b.device with
    | .memory base => some (base + (translateAddr a - b.start).toNat)
    | .rom base => some (base + (translateAddr a - b.start).toNat)
    | .opaqueUnit _ => none

/-! ## Shared bodies of the meanings -/

/-- An instruction that writes one register through set_reg. -/
def writeReg (rd : Reg) (v : Word) (s : State) : Result := .next (s.setReg rd v)

/-- MULT, MULTU, DIV, DIVU: write hi and lo at once (42_muldiv.md, D29). -/
def writeHiLo (p : Word × Word) (s : State) : Result := .next ((s.setHi p.1).setLo p.2)

/-- `if cond: cpu_branch(imm16)` (44_control.md R320). -/
def branchIf (cond : Bool) (imm16 : BitVec 16) (s : State) : Result :=
  if cond then .next (s.setNpc (branchTarget s.npc imm16)) else .next s

/-- BLTZAL and BGEZAL: link always, then branch on the condition (44_control.md R328, R329, D35). -/
def linkBranchIf (cond : Bool) (imm16 : BitVec 16) (s : State) : Result :=
  branchIf cond imm16 (s.setReg 31 s.npc)

/-- A delayed load of `w` at `ea` (43_loadstore.md R283 to R287). -/
def loadDelayed (rt : Reg) (ea : Word) (w : Width) (extend : Word → Word) (s : State) : Result :=
  match busFetch ea w s with
  | .error f => .fault f
  | .ok (v, t) => .next (t.setRegDelayed rt (extend v))

/-- A load of the aligned containing word merged into rt through set_reg (43_loadstore.md R291, R292). -/
def loadMerged (rt : Reg) (ea : Word) (merge : Nat → Word → Word → Word) (s : State) : Result :=
  match busFetch (alignWord ea) .word s with
  | .error f => .fault f
  | .ok (v, t) => .next (t.setReg rt (merge (bits ea 0 2) v (s.getReg rt)))

/-- A store of `w` at `ea` (43_loadstore.md R288 to R290). -/
def storeAt (ea : Word) (w : Width) (v : Word) (s : State) : Result :=
  match busStore ea w v s with
  | .error f => .fault f
  | .ok t => .next t

/-- SWL and SWR: fetch the aligned containing word, merge, store it (43_loadstore.md R293, R294). -/
def storeMerged (ea : Word) (merge : Nat → Word → Word → Word) (v : Word) (s : State) : Result :=
  match busFetch (alignWord ea) .word s with
  | .error f => .fault f
  | .ok (m, t) => storeAt (alignWord ea) .word (merge (bits ea 0 2) m v) t

/-! ## The steps of the tick other than step 5 (40_tick_pipeline.md R171) -/

/-- Step 1: cpc := pc (R172). -/
def State.latchCpc (s : State) : State := { s with cpc := s.pc }

/-- Step 3: pc := npc; npc := npc + 4 (R174). -/
def State.advance (s : State) : State := { s with pc := s.npc, npc := s.npc + 4 }

/-- Step 4: commit the pending load and clear the slot (R175). -/
def State.commitLoad (s : State) : State :=
  { s with
    outRegs := writeBank s.outRegs s.loadDelayTarget s.loadDelayValue
    loadDelayTarget := 0
    loadDelayValue := 0 }

/-- Step 6: in_regs := out_regs (R179). -/
def State.commitBanks (s : State) : State := { s with inRegs := s.outRegs }

/-- Step 7: count, and sleep on a breakpoint (R181). -/
def State.retire (s : State) : State :=
  { s with
    instrExecCnt := s.instrExecCnt + 1
    runState := if s.breakpoints.contains s.pc then .sleeping else s.runState }

/-- The end of a tick that hits a host fault: the tick-start state, halted, the reason recorded; the device accesses
already made stay made (R180, D25; log 5). -/
def State.haltOn (s0 : State) : Fault → State
  | .hostFault reason history =>
    { s0 with runState := .halted, haltReason := some reason, devHistory := history }

/-- Put a word where the next tick fetches, and let the CPU run: what the host does when it loads a program and sets
the run state (log 7). Where the fetch would not read a memory device or ROM, nothing is stored (log 24). -/
def State.placeWord (s : State) (v : Word) : State :=
  match storageAddress s.platform s.pc with
  | some a => { s with runState := .running, mem := s.mem.writeLE a v .word }
  | none => { s with runState := .running }

end Sys2Proof.Machine
end

