-- ==== Sys2Proof/Machine/Alu.lean ====
section
/-! DEFINITION. The integer ALU instructions (41_alu.md). -/

namespace Sys2Proof.Machine

/-! ## Register arithmetic and logic (R202 to R209) -/

/-- ADD (R202). -/
def execAdd (rs rt rd : Reg) (s : State) : Result :=
  if addOverflows (s.getReg rs) (s.getReg rt) then raise .overflow s
  else writeReg rd (s.getReg rs + s.getReg rt) s

/-- ADDU (R203). -/
def execAddu (rs rt rd : Reg) (s : State) : Result := writeReg rd (s.getReg rs + s.getReg rt) s

/-- SUB (R204). -/
def execSub (rs rt rd : Reg) (s : State) : Result :=
  if subOverflows (s.getReg rs) (s.getReg rt) then raise .overflow s
  else writeReg rd (s.getReg rs - s.getReg rt) s

/-- SUBU (R205). -/
def execSubu (rs rt rd : Reg) (s : State) : Result := writeReg rd (s.getReg rs - s.getReg rt) s

/-- AND (R206). -/
def execAnd (rs rt rd : Reg) (s : State) : Result := writeReg rd (s.getReg rs &&& s.getReg rt) s

/-- OR (R207). -/
def execOr (rs rt rd : Reg) (s : State) : Result := writeReg rd (s.getReg rs ||| s.getReg rt) s

/-- XOR (R208). -/
def execXor (rs rt rd : Reg) (s : State) : Result := writeReg rd (s.getReg rs ^^^ s.getReg rt) s

/-- NOR (R209). -/
def execNor (rs rt rd : Reg) (s : State) : Result := writeReg rd (~~~(s.getReg rs ||| s.getReg rt)) s

/-! ## Set on less than (R210, R211) -/

/-- SLT (R210). -/
def execSlt (rs rt rd : Reg) (s : State) : Result :=
  writeReg rd (boolWord (ltSigned (s.getReg rs) (s.getReg rt))) s

/-- SLTU (R211). -/
def execSltu (rs rt rd : Reg) (s : State) : Result :=
  writeReg rd (boolWord (ltUnsigned (s.getReg rs) (s.getReg rt))) s

/-! ## Shifts (R212 to R217) -/

/-- SLL (R212). -/
def execSll (rt rd : Reg) (shamt : Nat) (s : State) : Result := writeReg rd (s.getReg rt <<< shamt) s

/-- SRL (R213). -/
def execSrl (rt rd : Reg) (shamt : Nat) (s : State) : Result := writeReg rd (s.getReg rt >>> shamt) s

/-- SRA (R214). -/
def execSra (rt rd : Reg) (shamt : Nat) (s : State) : Result := writeReg rd ((s.getReg rt).sshiftRight shamt) s

/-- SLLV (R215). -/
def execSllv (rs rt rd : Reg) (s : State) : Result :=
  writeReg rd (s.getReg rt <<< shiftAmount (s.getReg rs)) s

/-- SRLV (R216). -/
def execSrlv (rs rt rd : Reg) (s : State) : Result :=
  writeReg rd (s.getReg rt >>> shiftAmount (s.getReg rs)) s

/-- SRAV (R217). -/
def execSrav (rs rt rd : Reg) (s : State) : Result :=
  writeReg rd ((s.getReg rt).sshiftRight (shiftAmount (s.getReg rs))) s

/-! ## Immediate arithmetic and logic, LUI (R218 to R225) -/

/-- ADDI (R218). -/
def execAddi (rs rt : Reg) (imm16 : BitVec 16) (s : State) : Result :=
  if addOverflows (s.getReg rs) (sext16 imm16) then raise .overflow s
  else writeReg rt (s.getReg rs + sext16 imm16) s

/-- ADDIU (R219). -/
def execAddiu (rs rt : Reg) (imm16 : BitVec 16) (s : State) : Result :=
  writeReg rt (s.getReg rs + sext16 imm16) s

/-- SLTI (R220). -/
def execSlti (rs rt : Reg) (imm16 : BitVec 16) (s : State) : Result :=
  writeReg rt (boolWord (ltSigned (s.getReg rs) (sext16 imm16))) s

/-- SLTIU: the immediate is sign-extended, then compared unsigned (R221). -/
def execSltiu (rs rt : Reg) (imm16 : BitVec 16) (s : State) : Result :=
  writeReg rt (boolWord (ltUnsigned (s.getReg rs) (sext16 imm16))) s

/-- ANDI (R222). -/
def execAndi (rs rt : Reg) (imm16 : BitVec 16) (s : State) : Result :=
  writeReg rt (s.getReg rs &&& zext16 imm16) s

/-- ORI (R223). -/
def execOri (rs rt : Reg) (imm16 : BitVec 16) (s : State) : Result :=
  writeReg rt (s.getReg rs ||| zext16 imm16) s

/-- XORI (R224). -/
def execXori (rs rt : Reg) (imm16 : BitVec 16) (s : State) : Result :=
  writeReg rt (s.getReg rs ^^^ zext16 imm16) s

/-- LUI (R225). -/
def execLui (rt : Reg) (imm16 : BitVec 16) (s : State) : Result := writeReg rt (upper16 imm16) s

end Sys2Proof.Machine
end

