-- ==== Sys2Proof/Machine/Control.lean ====
section
/-! DEFINITION. Branches and jumps (44_control.md). All targets are written into npc, never pc (R320). -/

namespace Sys2Proof.Machine

/-! ## Conditional branches (R322 to R327) -/

/-- BEQ (R322). -/
def execBeq (rs rt : Reg) (imm16 : BitVec 16) (s : State) : Result :=
  branchIf (decide (s.getReg rs = s.getReg rt)) imm16 s

/-- BNE (R323). -/
def execBne (rs rt : Reg) (imm16 : BitVec 16) (s : State) : Result :=
  branchIf (decide (s.getReg rs ≠ s.getReg rt)) imm16 s

/-- BLEZ (R324). -/
def execBlez (rs : Reg) (imm16 : BitVec 16) (s : State) : Result :=
  branchIf (decide ((s.getReg rs).toInt ≤ 0)) imm16 s

/-- BGTZ (R325). -/
def execBgtz (rs : Reg) (imm16 : BitVec 16) (s : State) : Result :=
  branchIf (decide ((s.getReg rs).toInt > 0)) imm16 s

/-- BLTZ (R326). -/
def execBltz (rs : Reg) (imm16 : BitVec 16) (s : State) : Result :=
  branchIf (decide ((s.getReg rs).toInt < 0)) imm16 s

/-- BGEZ (R327). -/
def execBgez (rs : Reg) (imm16 : BitVec 16) (s : State) : Result :=
  branchIf (decide ((s.getReg rs).toInt ≥ 0)) imm16 s

/-- BLTZAL (R328). -/
def execBltzal (rs : Reg) (imm16 : BitVec 16) (s : State) : Result :=
  linkBranchIf (decide ((s.getReg rs).toInt < 0)) imm16 s

/-- BGEZAL (R329). -/
def execBgezal (rs : Reg) (imm16 : BitVec 16) (s : State) : Result :=
  linkBranchIf (decide ((s.getReg rs).toInt ≥ 0)) imm16 s

/-! ## Jumps (R330 to R333) -/

/-- J (R330). -/
def execJ (imm26 : BitVec 26) (s : State) : Result := .next (s.setNpc (jumpTarget s.npc imm26))

/-- JAL (R331). -/
def execJal (imm26 : BitVec 26) (s : State) : Result :=
  .next ((s.setReg 31 s.npc).setNpc (jumpTarget s.npc imm26))

/-- JR (R332). -/
def execJr (rs : Reg) (s : State) : Result := .next (s.setNpc (s.getReg rs))

/-- JALR (R333). -/
def execJalr (rs rd : Reg) (s : State) : Result := .next ((s.setReg rd s.npc).setNpc (s.getReg rs))

end Sys2Proof.Machine
end

