-- ==== Sys2Proof/Machine/LoadStore.lean ====
section
/-! DEFINITION. Loads and stores (43_loadstore.md). Alignment is checked before isolation (R281, D33). -/

namespace Sys2Proof.Machine

/-! ## Delayed loads (R283 to R287) -/

/-- LB (R283). -/
def execLb (rs rt : Reg) (imm16 : BitVec 16) (s : State) : Result :=
  loadDelayed rt (effectiveAddress (s.getReg rs) imm16) .byte sextByte s

/-- LBU (R284). -/
def execLbu (rs rt : Reg) (imm16 : BitVec 16) (s : State) : Result :=
  loadDelayed rt (effectiveAddress (s.getReg rs) imm16) .byte zextByte s

/-- LH (R285). -/
def execLh (rs rt : Reg) (imm16 : BitVec 16) (s : State) : Result :=
  if misaligned (effectiveAddress (s.getReg rs) imm16) .half then raise .addressErrorLoad s
  else loadDelayed rt (effectiveAddress (s.getReg rs) imm16) .half sextHalf s

/-- LHU (R286). -/
def execLhu (rs rt : Reg) (imm16 : BitVec 16) (s : State) : Result :=
  if misaligned (effectiveAddress (s.getReg rs) imm16) .half then raise .addressErrorLoad s
  else loadDelayed rt (effectiveAddress (s.getReg rs) imm16) .half zextHalf s

/-- LW: suppressed under isolation (R282, R287, D31). -/
def execLw (rs rt : Reg) (imm16 : BitVec 16) (s : State) : Result :=
  if misaligned (effectiveAddress (s.getReg rs) imm16) .word then raise .addressErrorLoad s
  else if s.isolate then .next s
  else loadDelayed rt (effectiveAddress (s.getReg rs) imm16) .word id s

/-! ## Merged loads (R291, R292): not delayed, not suppressed -/

/-- LWL (R291). -/
def execLwl (rs rt : Reg) (imm16 : BitVec 16) (s : State) : Result :=
  loadMerged rt (effectiveAddress (s.getReg rs) imm16) mergeLwl s

/-- LWR (R292). -/
def execLwr (rs rt : Reg) (imm16 : BitVec 16) (s : State) : Result :=
  loadMerged rt (effectiveAddress (s.getReg rs) imm16) mergeLwr s

/-! ## Stores (R288 to R290): discarded under isolation -/

/-- SB (R288). -/
def execSb (rs rt : Reg) (imm16 : BitVec 16) (s : State) : Result :=
  if s.isolate then .next s
  else storeAt (effectiveAddress (s.getReg rs) imm16) .byte (s.getReg rt) s

/-- SH (R289). -/
def execSh (rs rt : Reg) (imm16 : BitVec 16) (s : State) : Result :=
  if misaligned (effectiveAddress (s.getReg rs) imm16) .half then raise .addressErrorStore s
  else if s.isolate then .next s
  else storeAt (effectiveAddress (s.getReg rs) imm16) .half (s.getReg rt) s

/-- SW (R290). -/
def execSw (rs rt : Reg) (imm16 : BitVec 16) (s : State) : Result :=
  if misaligned (effectiveAddress (s.getReg rs) imm16) .word then raise .addressErrorStore s
  else if s.isolate then .next s
  else storeAt (effectiveAddress (s.getReg rs) imm16) .word (s.getReg rt) s

/-! ## Merged stores (R293, R294) -/

/-- SWL (R293). -/
def execSwl (rs rt : Reg) (imm16 : BitVec 16) (s : State) : Result :=
  if s.isolate then .next s
  else storeMerged (effectiveAddress (s.getReg rs) imm16) mergeSwl (s.getReg rt) s

/-- SWR (R294). -/
def execSwr (rs rt : Reg) (imm16 : BitVec 16) (s : State) : Result :=
  if s.isolate then .next s
  else storeMerged (effectiveAddress (s.getReg rs) imm16) mergeSwr (s.getReg rt) s

end Sys2Proof.Machine
end

