-- ==== Sys2Proof/Machine/MulDiv.lean ====
section
/-! DEFINITION. Multiply, divide and the hi/lo moves (42_muldiv.md). -/

namespace Sys2Proof.Machine

/-- MULT (R262). -/
def execMult (rs rt : Reg) (s : State) : Result := writeHiLo (multSigned (s.getReg rs) (s.getReg rt)) s

/-- MULTU (R263). -/
def execMultu (rs rt : Reg) (s : State) : Result := writeHiLo (multUnsigned (s.getReg rs) (s.getReg rt)) s

/-- DIV (R264). -/
def execDiv (rs rt : Reg) (s : State) : Result := writeHiLo (divSigned (s.getReg rs) (s.getReg rt)) s

/-- DIVU (R265). -/
def execDivu (rs rt : Reg) (s : State) : Result := writeHiLo (divUnsigned (s.getReg rs) (s.getReg rt)) s

/-- MFHI (R266). -/
def execMfhi (rd : Reg) (s : State) : Result := writeReg rd s.hi s

/-- MFLO (R267). -/
def execMflo (rd : Reg) (s : State) : Result := writeReg rd s.lo s

/-- MTHI (R268). -/
def execMthi (rs : Reg) (s : State) : Result := .next (s.setHi (s.getReg rs))

/-- MTLO (R269). -/
def execMtlo (rs : Reg) (s : State) : Result := .next (s.setLo (s.getReg rs))

end Sys2Proof.Machine
end

