-- ==== Sys2Proof/Machine/System.lean ====
section
/-! DEFINITION. Traps, COP0 moves, the other coprocessors, and reserved words (45_system.md). -/

namespace Sys2Proof.Machine

/-! ## Traps (R350, R351): the code field is ignored -/

/-- SYSCALL (R350). -/
def execSyscall (_code : BitVec 20) (s : State) : Result := raise .syscall s

/-- BREAK (R351). -/
def execBreak (_code : BitVec 20) (s : State) : Result := raise .break_ s

/-! ## COP0 (R352 to R354): no privilege check (D37) -/

/-- MFC0: delayed like a load (R352). -/
def execMfc0 (rt rd : Reg) (s : State) : Result := .next (s.setRegDelayed rt (s.getC0 rd))

/-- MTC0 (R353). -/
def execMtc0 (rt rd : Reg) (s : State) : Result := .next (s.setC0 rd (s.getReg rt))

/-- RFE (R354). -/
def execRfe (s : State) : Result := .next s.popMode

/-! ## Coprocessors 1 and 3 (R355): no access, no alignment check, CU bits not consulted -/

/-- COP1 (R355). -/
def execCop1 (_copFields : BitVec 26) (s : State) : Result := raise .coprocessorUnusable s

/-- COP3 (R355). -/
def execCop3 (_copFields : BitVec 26) (s : State) : Result := raise .coprocessorUnusable s

/-- LWC0 (R355). -/
def execLwc0 (_copFields : BitVec 26) (s : State) : Result := raise .coprocessorUnusable s

/-- LWC1 (R355). -/
def execLwc1 (_copFields : BitVec 26) (s : State) : Result := raise .coprocessorUnusable s

/-- LWC3 (R355). -/
def execLwc3 (_copFields : BitVec 26) (s : State) : Result := raise .coprocessorUnusable s

/-- SWC0 (R355). -/
def execSwc0 (_copFields : BitVec 26) (s : State) : Result := raise .coprocessorUnusable s

/-- SWC1 (R355). -/
def execSwc1 (_copFields : BitVec 26) (s : State) : Result := raise .coprocessorUnusable s

/-- SWC3 (R355). -/
def execSwc3 (_copFields : BitVec 26) (s : State) : Result := raise .coprocessorUnusable s

/-! ## Coprocessor 2, the GTE family (R356) -/

/-- CoprocessorUnusable with SR.CU2 = 0, host fault Unimplemented(ins) with SR.CU2 = 1 (R356, D24). -/
def gteWord (ins : Word) (s : State) : Result :=
  if s.cu2 then .fault (.hostFault (.unimplemented ins) s.devHistory) else raise .coprocessorUnusable s

/-- COP2 (R356). -/
def execCop2 (copFields : BitVec 26) (s : State) : Result := gteWord (encodeJ 0x12 copFields) s

/-- LWC2 (R356). -/
def execLwc2 (copFields : BitVec 26) (s : State) : Result := gteWord (encodeJ 0x32 copFields) s

/-- SWC2 (R356). -/
def execSwc2 (copFields : BitVec 26) (s : State) : Result := gteWord (encodeJ 0x3A copFields) s

/-! ## Reserved words (R357) -/

/-- Every word that decodes to no instruction raises IllegalInstruction (R357, D19; log 12). -/
def execReserved (s : State) : Result := raise .illegalInstruction s

end Sys2Proof.Machine
end

