-- ==== Sys2Proof/Machine/Dispatch.lean ====
section
/-! DEFINITION. Step 5's dispatch: one arm per row of spec/opcode_table.json (40_tick_pipeline.md R182). -/

namespace Sys2Proof.Machine

/-- Execute one instruction at step 5 of a tick. -/
def exec (i : Instr) (s : State) : Host.Outcome State Fault Refusal :=
  match i with
  | .sll rt rd shamt => Sys2Proof.Machine.execSll rt rd shamt s
  | .srl rt rd shamt => Sys2Proof.Machine.execSrl rt rd shamt s
  | .sra rt rd shamt => Sys2Proof.Machine.execSra rt rd shamt s
  | .sllv rs rt rd => Sys2Proof.Machine.execSllv rs rt rd s
  | .srlv rs rt rd => Sys2Proof.Machine.execSrlv rs rt rd s
  | .srav rs rt rd => Sys2Proof.Machine.execSrav rs rt rd s
  | .jr rs => Sys2Proof.Machine.execJr rs s
  | .jalr rs rd => Sys2Proof.Machine.execJalr rs rd s
  | .syscall code => Sys2Proof.Machine.execSyscall code s
  | .brk code => Sys2Proof.Machine.execBreak code s
  | .mfhi rd => Sys2Proof.Machine.execMfhi rd s
  | .mthi rs => Sys2Proof.Machine.execMthi rs s
  | .mflo rd => Sys2Proof.Machine.execMflo rd s
  | .mtlo rs => Sys2Proof.Machine.execMtlo rs s
  | .mult rs rt => Sys2Proof.Machine.execMult rs rt s
  | .multu rs rt => Sys2Proof.Machine.execMultu rs rt s
  | .div rs rt => Sys2Proof.Machine.execDiv rs rt s
  | .divu rs rt => Sys2Proof.Machine.execDivu rs rt s
  | .add rs rt rd => Sys2Proof.Machine.execAdd rs rt rd s
  | .addu rs rt rd => Sys2Proof.Machine.execAddu rs rt rd s
  | .sub rs rt rd => Sys2Proof.Machine.execSub rs rt rd s
  | .subu rs rt rd => Sys2Proof.Machine.execSubu rs rt rd s
  | .and rs rt rd => Sys2Proof.Machine.execAnd rs rt rd s
  | .or rs rt rd => Sys2Proof.Machine.execOr rs rt rd s
  | .xor rs rt rd => Sys2Proof.Machine.execXor rs rt rd s
  | .nor rs rt rd => Sys2Proof.Machine.execNor rs rt rd s
  | .slt rs rt rd => Sys2Proof.Machine.execSlt rs rt rd s
  | .sltu rs rt rd => Sys2Proof.Machine.execSltu rs rt rd s
  | .bltz rs imm16 => Sys2Proof.Machine.execBltz rs imm16 s
  | .bgez rs imm16 => Sys2Proof.Machine.execBgez rs imm16 s
  | .bltzal rs imm16 => Sys2Proof.Machine.execBltzal rs imm16 s
  | .bgezal rs imm16 => Sys2Proof.Machine.execBgezal rs imm16 s
  | .j imm26 => Sys2Proof.Machine.execJ imm26 s
  | .jal imm26 => Sys2Proof.Machine.execJal imm26 s
  | .beq rs rt imm16 => Sys2Proof.Machine.execBeq rs rt imm16 s
  | .bne rs rt imm16 => Sys2Proof.Machine.execBne rs rt imm16 s
  | .blez rs imm16 => Sys2Proof.Machine.execBlez rs imm16 s
  | .bgtz rs imm16 => Sys2Proof.Machine.execBgtz rs imm16 s
  | .addi rs rt imm16 => Sys2Proof.Machine.execAddi rs rt imm16 s
  | .addiu rs rt imm16 => Sys2Proof.Machine.execAddiu rs rt imm16 s
  | .slti rs rt imm16 => Sys2Proof.Machine.execSlti rs rt imm16 s
  | .sltiu rs rt imm16 => Sys2Proof.Machine.execSltiu rs rt imm16 s
  | .andi rs rt imm16 => Sys2Proof.Machine.execAndi rs rt imm16 s
  | .ori rs rt imm16 => Sys2Proof.Machine.execOri rs rt imm16 s
  | .xori rs rt imm16 => Sys2Proof.Machine.execXori rs rt imm16 s
  | .lui rt imm16 => Sys2Proof.Machine.execLui rt imm16 s
  | .mfc0 rt rd => Sys2Proof.Machine.execMfc0 rt rd s
  | .mtc0 rt rd => Sys2Proof.Machine.execMtc0 rt rd s
  | .rfe => Sys2Proof.Machine.execRfe s
  | .lb rs rt imm16 => Sys2Proof.Machine.execLb rs rt imm16 s
  | .lh rs rt imm16 => Sys2Proof.Machine.execLh rs rt imm16 s
  | .lwl rs rt imm16 => Sys2Proof.Machine.execLwl rs rt imm16 s
  | .lw rs rt imm16 => Sys2Proof.Machine.execLw rs rt imm16 s
  | .lbu rs rt imm16 => Sys2Proof.Machine.execLbu rs rt imm16 s
  | .lhu rs rt imm16 => Sys2Proof.Machine.execLhu rs rt imm16 s
  | .lwr rs rt imm16 => Sys2Proof.Machine.execLwr rs rt imm16 s
  | .sb rs rt imm16 => Sys2Proof.Machine.execSb rs rt imm16 s
  | .sh rs rt imm16 => Sys2Proof.Machine.execSh rs rt imm16 s
  | .swl rs rt imm16 => Sys2Proof.Machine.execSwl rs rt imm16 s
  | .sw rs rt imm16 => Sys2Proof.Machine.execSw rs rt imm16 s
  | .swr rs rt imm16 => Sys2Proof.Machine.execSwr rs rt imm16 s
  | .cop1 copFields => Sys2Proof.Machine.execCop1 copFields s
  | .cop3 copFields => Sys2Proof.Machine.execCop3 copFields s
  | .lwc0 copFields => Sys2Proof.Machine.execLwc0 copFields s
  | .lwc1 copFields => Sys2Proof.Machine.execLwc1 copFields s
  | .lwc3 copFields => Sys2Proof.Machine.execLwc3 copFields s
  | .swc0 copFields => Sys2Proof.Machine.execSwc0 copFields s
  | .swc1 copFields => Sys2Proof.Machine.execSwc1 copFields s
  | .swc3 copFields => Sys2Proof.Machine.execSwc3 copFields s
  | .cop2 copFields => Sys2Proof.Machine.execCop2 copFields s
  | .lwc2 copFields => Sys2Proof.Machine.execLwc2 copFields s
  | .swc2 copFields => Sys2Proof.Machine.execSwc2 copFields s

end Sys2Proof.Machine
end

