-- ==== Sys2Proof/Machine/Step.lean ====
section
/-! DEFINITION. One tick (40_tick_pipeline.md R171). -/

namespace Sys2Proof.Machine

/-- Step 5: decode and execute; a reserved word raises IllegalInstruction (40_tick_pipeline.md R182). -/
def executeWord (ins : Word) (s : State) : Host.Outcome State Fault Refusal :=
  match decodeWord ins with
  | .ok i => exec i s
  | .error _ => execReserved s

/-- Steps 6 and 7, after whatever step 5 left (40_tick_pipeline.md R179, R181). -/
def finishTick : Host.Outcome State Fault Refusal → Host.Outcome State Fault Refusal
  | .next s => .next s.commitBanks.retire
  | .fault f => .fault f
  | .refused r => .refused r

/-- Steps 1 to 7 of a running CPU (40_tick_pipeline.md R171): a next state, or a host fault. -/
def tickBody (s : State) : Host.Outcome State Fault Refusal :=
  if misaligned s.latchCpc.cpc .word then .next (throwException .addressErrorLoad s.latchCpc)
  else
    match busFetch s.latchCpc.cpc .word s.latchCpc with
    | .error f => .fault f
    | .ok (ins, t) => finishTick (executeWord ins t.advance.commitLoad)

/-- A host fault ends the tick in the halted tick-start state (40_tick_pipeline.md R180; log 4). -/
def settleTick (s0 : State) : Host.Outcome State Fault Refusal → Host.Outcome State Fault Refusal
  | .next s => .next s
  | .fault f => .next (s0.haltOn f)
  | .refused r => .refused r

/-- `tick()`: only `running` advances (40_tick_pipeline.md R170, D26). -/
def step (s : State) : Host.Outcome State Fault Refusal :=
  match s.runState with
  | .running => settleTick s (tickBody s)
  | .sleeping => .next s
  | .halted => .next s

/-- The state with this instruction's word where the next tick fetches it, and the CPU running (log 7, log 24). -/
def State.withFetchWord (s : State) (nbits w : Nat) : State := s.placeWord (tableWord nbits w)

end Sys2Proof.Machine
end

