-- ==== Sys2Proof/Machine/HostOps.lean ====
section
/-! DEFINITION. The host's operations, each between ticks (70_reset_and_hazards.md R430 to R436, R442). `tick()` is
`step`. -/

namespace Sys2Proof.Machine

/-! ## init and power-on (R430) -/

/-- A bank of registers after init: zero, or with `reset_gprs_unknown` a draw in each register but register 0
(10_state.md R52; 00_scope.md R10, D3; log 14). -/
def resetBank (gprsUnknown : Bool) : RegFile :=
  Vector.ofFn fun i : Reg => if gprsUnknown && i != 0 then Config.resetDraw i.val else 0

/-- hi or lo after init, `k` telling them apart (log 14). -/
def resetResult (gprsUnknown : Bool) (k : Nat) : Word := if gprsUnknown then Config.resetDraw k else 0

/-- `init(bus)` with the parameters `reset_sr` and `reset_gprs_unknown`: every CPU field of 10_state.md R52; the
breakpoint set, the bindings and the memory contents stay (R430). -/
def State.init (resetSr : Word) (gprsUnknown : Bool) (s : State) : State :=
  { s with
    inRegs := resetBank gprsUnknown
    outRegs := resetBank gprsUnknown
    hi := resetResult gprsUnknown 32
    lo := resetResult gprsUnknown 33
    cpc := 0
    pc := 0xBFC00000
    npc := 0xBFC00004
    loadDelayTarget := 0
    loadDelayValue := 0
    c0regs := (Vector.replicate 32 0).set 12 resetSr
    runState := .sleeping
    haltReason := none
    instrExecCnt := 0 }

/-- A console that has just been created on this platform with these memory contents, then reset (R430, D5, D15). -/
def powerOn (platform : List Binding) (mem : Memory) (resetSr : Word) (gprsUnknown : Bool) : State :=
  State.init resetSr gprsUnknown { State.reset with platform := platform, mem := mem, breakpoints := [], devHistory := [] }

/-! ## Run state and breakpoints (R433, R434; D45, D46) -/

/-- `set_state(r)`: from any state to any state (R434, D45). -/
def State.setRunState (s : State) (r : RunState) : State := { s with runState := r }

/-- Insert into a strictly rising list of addresses (log 15). -/
def insertAddress (a : Word) : List Word → List Word
  | [] => [a]
  | b :: rest =>
    if a.toNat < b.toNat then a :: b :: rest
    else if a = b then b :: rest
    else b :: insertAddress a rest

/-- `add_breakpoint(a)` (R433, D46). -/
def State.addBreakpoint (s : State) (a : Word) : State := { s with breakpoints := insertAddress a s.breakpoints }

/-- `remove_breakpoint(a)` (R433, D46). -/
def State.removeBreakpoint (s : State) (a : Word) : State :=
  { s with breakpoints := s.breakpoints.filter fun b => b != a }

/-! ## The bus set-up operation (20_memory.md R86) -/

/-- `connect(device, mem_range)`: append a binding; a range that is not word-aligned is refused (D13; log 9). -/
def State.connect (s : State) (b : Binding) : Option State :=
  if bindingAligned b then some { s with platform := s.platform ++ [b] } else none

/-! ## Save states (10_state.md R53; R435, D43) -/

/-- The fields of the image, one word each, in order (10_state.md R53). -/
def State.imageWords (s : State) : List Word :=
  [BitVec.ofNat 32 s.loadDelayTarget.val, s.loadDelayValue] ++ s.inRegs.toList ++ s.outRegs.toList
    ++ [s.hi, s.lo, s.cpc, s.pc, s.npc] ++ s.c0regs.toList ++ [s.instrExecCnt]

/-- `save_state()`: 104 words, least significant byte first (R435). -/
def State.saveState (s : State) : List Byte := s.imageWords.flatMap wordBytes

/-- Bytes as little-endian words. -/
def wordsOfBytes : List Byte → List Word
  | b0 :: b1 :: b2 :: b3 :: rest => wordOfBytes b0 b1 b2 b3 :: wordsOfBytes rest
  | _ => []

/-- 32 words of an image from word offset `off` on, as a bank. -/
def bankOfImage (ws : List Word) (off : Nat) : RegFile := Vector.ofFn fun i : Reg => ws.getD (off + i.val) 0

/-- Store an image's words into the CPU, at the word offsets of 10_state.md R53. -/
def State.loadImage (s : State) (ws : List Word) (target : Reg) : State :=
  { s with
    loadDelayTarget := target
    loadDelayValue := ws.getD 1 0
    inRegs := bankOfImage ws 2
    outRegs := bankOfImage ws 34
    hi := ws.getD 66 0
    lo := ws.getD 67 0
    cpc := ws.getD 68 0
    pc := ws.getD 69 0
    npc := ws.getD 70 0
    c0regs := bankOfImage ws 71
    instrExecCnt := ws.getD 103 0 }

/-- `load_state(bytes)`: none is the refusal, which changes nothing (R435, D43). -/
def State.loadState (s : State) (image : List Byte) : Option State :=
  if image.length = 416 then
    if h : ((wordsOfBytes image).getD 0 0).toNat < 32 then
      some (s.loadImage (wordsOfBytes image) ⟨((wordsOfBytes image).getD 0 0).toNat, h⟩)
    else none
  else none

/-! ## Run until the state changes (R436, D47) -/

/-- `run_until_change(cap)`: tick while running and fewer than `cap` ticks are done; the count and the state. -/
def runUntilChange : Nat → State → Nat × State
  | 0, s => (0, s)
  | cap + 1, s =>
    match s.runState with
    | .running =>
      match step s with
      | .next t => ((runUntilChange cap t).1 + 1, (runUntilChange cap t).2)
      | .fault _ => (0, s)
      | .refused _ => (0, s)
    | .sleeping => (0, s)
    | .halted => (0, s)

end Sys2Proof.Machine
end

