-- ==== Sys2Proof/Safety.lean ====
section
/-! DEFINITION. What claims mean by a control instruction, a well-formed state and a safe run. -/

namespace Sys2Proof

/-- The instructions that may write npc: branches and jumps (10_state.md R37). -/
def Instr.isControl : Instr → Bool
  | .beq .. | .bne .. | .blez .. | .bgtz .. | .bltz .. | .bgez .. | .bltzal .. | .bgezal .. => true
  | .j .. | .jal .. | .jr .. | .jalr .. => true
  | _ => false

/-- The instructions that may write hi or lo (10_state.md R35). -/
def Instr.writesHiLo : Instr → Bool
  | .mult .. | .multu .. | .div .. | .divu .. | .mthi .. | .mtlo .. => true
  | _ => false

end Sys2Proof

namespace Sys2Proof.Machine

/-- Register 0 reads 0 in both banks (10_state.md R31). -/
abbrev State.zeroReg (s : State) : Prop := s.getReg 0 = 0 ∧ s.getOut 0 = 0

/-- The two banks agree, as they do at every tick boundary (10_state.md R54). -/
abbrev State.banksAgree (s : State) : Prop := s.inRegs = s.outRegs

/-- The breakpoint set is in its one form: addresses strictly rising (10_state.md R47; log 15). -/
abbrev State.breakpointsRising (s : State) : Prop := s.breakpoints.Pairwise fun a b => a.toNat < b.toNat

/-- The state between ticks: the zero register, agreeing banks, memory in canonical form, the breakpoint set in its
form, a word-aligned platform (D13). -/
abbrev State.Inv (s : State) : Prop :=
  s.zeroReg ∧ s.banksAgree ∧ s.mem.wf = true ∧ s.breakpointsRising ∧ platformAligned s.platform = true

/-- A safe state: no host fault has stopped the CPU (40_tick_pipeline.md R180). -/
abbrev State.Safe (s : State) : Prop := s.runState ≠ .halted

/-- A safe run of `n` ticks from `s`: each of its states is safe. -/
def SafeRun : Nat → State → Prop
  | 0, s => s.Safe
  | n + 1, s => s.Safe ∧ ∀ t, step s = .next t → SafeRun n t

end Sys2Proof.Machine
end

