-- ==== Sys2Proof/Certificates/Slice0/Obligations.lean ====
section
/-! DEFINITION. The statements for the provers. The helpers below say, in the words of the rules and apart from the
model's own definitions of the same things, what a handler left behind. -/

namespace Sys2Proof.Claims

open Sys2Proof.Machine

/-! ## Helpers -/

/-- Bit `k` of SR, COP0 slot 12 (10_state.md R43). -/
def srBit (s : State) (k : Nat) : Bool := (s.getC0 12).getLsbD k

/-- rs + sign_extend16(imm), modulo 2^32 (43_loadstore.md R280). -/
def ea (s : State) (rs : Reg) (imm16 : BitVec 16) : Word := s.getReg rs + imm16.signExtend 32

/-- ea & 0xFFFFFFFC: the aligned containing word's address (43_loadstore.md R291). -/
def eaWord (s : State) (rs : Reg) (imm16 : BitVec 16) : Word := ea s rs imm16 &&& 0xFFFFFFFC

/-- ea[1:0]. -/
def lane (s : State) (rs : Reg) (imm16 : BitVec 16) : Nat := (ea s rs imm16).toNat % 4

/-- `i` completes and writes `v` to register `d` of the out bank: register 0 is 0, every other register and every
other field of the state is as before (40_tick_pipeline.md R177; 10_state.md R31). -/
def WritesReg (i : Instr) (s : State) (d : Reg) (v : Word) : Prop :=
  ∃ t, exec i s = .next t ∧ (∀ r : Reg, t.getOut r = if r = 0 then 0 else if r = d then v else s.getOut r) ∧
    { t with outRegs := s.outRegs } = s

/-- `t` is `s` after throw_exception with this code: the pushed mode stack, Cause, EPC, the handler; every other COP0
slot and every other field of the state is as before (60_exceptions.md R382 to R388). -/
def IsEntry (s t : State) (code : Word) : Prop :=
  bits (t.getC0 12) 0 2 = 0 ∧ bits (t.getC0 12) 2 4 = bits (s.getC0 12) 0 4 ∧
    bits (t.getC0 12) 6 26 = bits (s.getC0 12) 6 26 ∧
  (s.pc - s.cpc = 4 → t.getC0 13 = code <<< 2 ∧ t.getC0 14 = s.cpc) ∧
  (s.pc - s.cpc ≠ 4 → t.getC0 13 = (code <<< 2) ||| 0x80000000 ∧ t.getC0 14 = s.cpc - 4) ∧
  t.pc = (if srBit s 22 then 0xBFC00180 else 0x80000080) ∧ t.npc = t.pc + 4 ∧
  (∀ k : Reg, k ≠ 12 → k ≠ 13 → k ≠ 14 → t.getC0 k = s.getC0 k) ∧
  { t with c0regs := s.c0regs, pc := s.pc, npc := s.npc } = s

/-- `i` ends in the exception with this code, and in nothing else. -/
def EntersException (i : Instr) (s : State) (code : Word) : Prop := ∃ t, exec i s = .next t ∧ IsEntry s t code

/-- The bus routes an access at logical address `a` to `b`, and `b` offers it (20_memory.md R89, R90). -/
def Reaches (s : State) (a : Word) (k : AccessKind) (w : Width) (b : Binding) : Prop :=
  route s.platform (translateAddr a) = some b ∧ offers b k w = true

/-- The binding's device is a memory device or a ROM whose byte 0 is at storage address `base`. -/
def Stored (b : Binding) (base : Nat) : Prop := b.device = .memory base ∨ b.device = .rom base

/-- The storage address of the byte that logical address `a` reaches through `b` (20_memory.md R89: the offset is
range-relative). -/
def cell (b : Binding) (base : Nat) (a : Word) : Nat := base + (translateAddr a - b.start).toNat

/-- The word of four bytes in memory, least significant first (20_memory.md R98). -/
def wordAt (m : Memory) (c : Nat) : Word := m.read (c + 3) ++ m.read (c + 2) ++ m.read (c + 1) ++ m.read c

/-- The halfword of two bytes in memory, least significant first (20_memory.md R98). -/
def halfAt (m : Memory) (c : Nat) : BitVec 16 := m.read (c + 1) ++ m.read c

/-- Byte `j` of a word. -/
def wordByte (v : Word) (j : Nat) : BitVec 8 := v.extractLsb' (8 * j) 8

/-- `t` is `s` with the pending load slot set, and nothing else. -/
def staged (s : State) (rt : Reg) (v : Word) : State := { s with loadDelayTarget := rt, loadDelayValue := v }

/-- The first bus access the instruction makes from this state: kind, logical address, width. None for an
instruction that makes none, a misaligned access (43_loadstore.md R281) or a suppressed one (R282). -/
def firstAccess (s : State) : Instr → Option (AccessKind × Word × Width)
  | .lb rs _ imm => some (.fetch, ea s rs imm, .byte)
  | .lbu rs _ imm => some (.fetch, ea s rs imm, .byte)
  | .lh rs _ imm => if (ea s rs imm).toNat % 2 = 0 then some (.fetch, ea s rs imm, .half) else none
  | .lhu rs _ imm => if (ea s rs imm).toNat % 2 = 0 then some (.fetch, ea s rs imm, .half) else none
  | .lw rs _ imm => if lane s rs imm = 0 ∧ srBit s 16 = false then some (.fetch, ea s rs imm, .word) else none
  | .lwl rs _ imm => some (.fetch, eaWord s rs imm, .word)
  | .lwr rs _ imm => some (.fetch, eaWord s rs imm, .word)
  | .sb rs _ imm => if srBit s 16 = false then some (.store, ea s rs imm, .byte) else none
  | .sh rs _ imm =>
    if (ea s rs imm).toNat % 2 = 0 ∧ srBit s 16 = false then some (.store, ea s rs imm, .half) else none
  | .sw rs _ imm => if lane s rs imm = 0 ∧ srBit s 16 = false then some (.store, ea s rs imm, .word) else none
  | .swl rs _ imm => if srBit s 16 = false then some (.fetch, eaWord s rs imm, .word) else none
  | .swr rs _ imm => if srBit s 16 = false then some (.fetch, eaWord s rs imm, .word) else none
  | _ => none

/-- SWL and SWR also store to the word they fetched (43_loadstore.md R293, R294). -/
def mergesStore : Instr → Bool
  | .swl .. => true
  | .swr .. => true
  | _ => false

/-- The code of the exception the instruction raises from this state, as the table of 60_exceptions.md R402 lists
them; none where it raises none. -/
def raises (s : State) : Instr → Option Word
  | .add rs rt _ =>
    if -2 ^ 31 ≤ (s.getReg rs).toInt + (s.getReg rt).toInt ∧ (s.getReg rs).toInt + (s.getReg rt).toInt < 2 ^ 31
    then none else some 12
  | .addi rs _ imm =>
    if -2 ^ 31 ≤ (s.getReg rs).toInt + imm.toInt ∧ (s.getReg rs).toInt + imm.toInt < 2 ^ 31 then none else some 12
  | .sub rs rt _ =>
    if -2 ^ 31 ≤ (s.getReg rs).toInt - (s.getReg rt).toInt ∧ (s.getReg rs).toInt - (s.getReg rt).toInt < 2 ^ 31
    then none else some 12
  | .lh rs _ imm => if (ea s rs imm).toNat % 2 = 0 then none else some 4
  | .lhu rs _ imm => if (ea s rs imm).toNat % 2 = 0 then none else some 4
  | .lw rs _ imm => if lane s rs imm = 0 then none else some 4
  | .sh rs _ imm => if (ea s rs imm).toNat % 2 = 0 then none else some 5
  | .sw rs _ imm => if lane s rs imm = 0 then none else some 5
  | .syscall _ => some 8
  | .brk _ => some 9
  | .cop1 _ | .cop3 _ | .lwc0 _ | .lwc1 _ | .lwc3 _ | .swc0 _ | .swc1 _ | .swc3 _ => some 11
  | .cop2 _ | .lwc2 _ | .swc2 _ => if srBit s 30 then none else some 11
  | _ => none

/-- The register the instruction writes through set_reg where it raises nothing (10_state.md R33). -/
def setRegTarget : Instr → Option Reg
  | .sll _ rd _ | .srl _ rd _ | .sra _ rd _ => some rd
  | .sllv _ _ rd | .srlv _ _ rd | .srav _ _ rd => some rd
  | .add _ _ rd | .addu _ _ rd | .sub _ _ rd | .subu _ _ rd => some rd
  | .and _ _ rd | .or _ _ rd | .xor _ _ rd | .nor _ _ rd | .slt _ _ rd | .sltu _ _ rd => some rd
  | .addi _ rt _ | .addiu _ rt _ | .slti _ rt _ | .sltiu _ rt _ => some rt
  | .andi _ rt _ | .ori _ rt _ | .xori _ rt _ | .lui rt _ => some rt
  | .mfhi rd | .mflo rd | .jalr _ rd => some rd
  | .jal _ | .bltzal _ _ | .bgezal _ _ => some 31
  | .lwl _ rt _ | .lwr _ rt _ => some rt
  | _ => none

/-- `s` with this value in SR, and nothing else changed. -/
def withSr (s : State) (sr : Word) : State := { s with c0regs := s.c0regs.set 12 sr }

/-- `sr` agrees with SR on the bits that rules read: IsC 16, BEV 22, CU2 30 (10_state.md R43). -/
def SrAgrees (s : State) (sr : Word) : Prop :=
  sr.getLsbD 16 = srBit s 16 ∧ sr.getLsbD 22 = srBit s 22 ∧ sr.getLsbD 30 = srBit s 30

/-- The COP2 family (45_system.md R356). -/
def gteFamily : Instr → Bool
  | .cop2 .. => true
  | .lwc2 .. => true
  | .swc2 .. => true
  | _ => false

/-- The words that are no instruction, as 45_system.md R357 lists them. -/
def Reserved (w : Word) : Prop :=
  (0x14 ≤ bits w 26 6 ∧ bits w 26 6 ≤ 0x1F) ∨ bits w 26 6 ∈ [0x27, 0x2C, 0x2D, 0x2F] ∨
  (0x34 ≤ bits w 26 6 ∧ bits w 26 6 ≤ 0x37) ∨ (0x3C ≤ bits w 26 6 ∧ bits w 26 6 ≤ 0x3F) ∨
  (bits w 26 6 = 0x00 ∧ (bits w 0 6 ∈ [0x01, 0x05, 0x0A, 0x0B, 0x0E, 0x0F] ∨ (0x14 ≤ bits w 0 6 ∧ bits w 0 6 ≤ 0x17) ∨
    (0x1C ≤ bits w 0 6 ∧ bits w 0 6 ≤ 0x1F) ∨ bits w 0 6 ∈ [0x28, 0x29] ∨ (0x2C ≤ bits w 0 6 ∧ bits w 0 6 ≤ 0x3F))) ∨
  (bits w 26 6 = 0x01 ∧ bits w 16 5 ∉ [0x00, 0x01, 0x10, 0x11]) ∨
  (bits w 26 6 = 0x10 ∧ bits w 21 5 ≠ 0x00 ∧ bits w 21 5 ≠ 0x04 ∧ ¬(bits w 21 5 = 0x10 ∧ bits w 0 6 = 0x10))

/-- The state at step 5 of a tick whose fetch left `u`: pc and npc advanced, the pending load committed
(40_tick_pipeline.md R174, R175). -/
def atStepFive (u : State) : State :=
  { u with
    pc := u.npc
    npc := u.npc + 4
    outRegs := (u.outRegs.set u.loadDelayTarget.val u.loadDelayValue).set 0 0
    loadDelayTarget := 0
    loadDelayValue := 0 }

/-- The state after steps 6 and 7 (40_tick_pipeline.md R179, R181). -/
def afterStepSeven (v : State) : State :=
  { v with
    inRegs := v.outRegs
    instrExecCnt := v.instrExecCnt + 1
    runState := if v.pc ∈ v.breakpoints then .sleeping else v.runState }

end Sys2Proof.Claims

open Sys2Proof Sys2Proof.Machine Sys2Proof.Claims

/-! ## Reset and the tick -/

/-- 10_state.md R52 (the spec's decisions D3, D4, D5, D15): what init leaves in every piece of state, and what
power-on adds. -/
def Obligations.InitSetsEveryField : Prop :=
  (∀ (s : State) (sr : Word),
    (∀ r : Reg, (s.init sr false).getReg r = 0 ∧ (s.init sr false).getOut r = 0) ∧
    (s.init sr false).hi = 0 ∧ (s.init sr false).lo = 0 ∧ (s.init sr false).cpc = 0 ∧
    (s.init sr false).pc = 0xBFC00000 ∧ (s.init sr false).npc = 0xBFC00004 ∧
    (s.init sr false).loadDelayTarget = 0 ∧ (s.init sr false).loadDelayValue = 0 ∧
    (∀ k : Reg, (s.init sr false).getC0 k = if k = 12 then sr else 0) ∧
    (s.init sr false).runState = .sleeping ∧ (s.init sr false).instrExecCnt = 0 ∧
    (s.init sr false).breakpoints = s.breakpoints ∧ (s.init sr false).platform = s.platform ∧
    (s.init sr false).mem = s.mem) ∧
  (∀ (p : List Binding) (m : Memory) (sr : Word),
    (powerOn p m sr false).mem = m ∧ (powerOn p m sr false).platform = p ∧ (powerOn p m sr false).breakpoints = [])

/-- The state after reset is that of power-on with the default parameters and nothing listed in memory (the model's
choice, log 1), and it meets the invariant (10_state.md R31, R54, which derives it). -/
def Obligations.ResetMeetsInvariant : Prop :=
  State.reset = powerOn defaultPlatform [] 0 false ∧ State.reset.Inv

/-- From every state that meets the invariant, a step leads to one that meets it (10_state.md R31, R54). -/
def Obligations.StepKeepsInvariant : Prop := ∀ s t : State, s.Inv → step s = .next t → t.Inv

/-- 40_tick_pipeline.md R171 (D26, D27): a step is the tick protocol; when the word fetched at pc decodes to `i`, it
is `exec i` at the step-5 state, then steps 6 and 7; a host fault ends it in the halted tick-start state (R180, D25).
That the record of device accesses is then the fault's own `h`, and not the tick start's, is the model's reading
(log 5). -/
def Obligations.StepRunsDecodedInstruction : Prop :=
  ∀ s : State,
    (s.runState ≠ .running → step s = .next s) ∧
    (s.runState = .running → s.pc.toNat % 4 ≠ 0 →
      step s = .next (throwException .addressErrorLoad { s with cpc := s.pc })) ∧
    (s.runState = .running → s.pc.toNat % 4 = 0 →
      (∀ (r : HostFault) (h : List DeviceEvent), busFetch s.pc .word { s with cpc := s.pc } = .error (.hostFault r h) →
        step s = .next { s with runState := .halted, haltReason := some r, devHistory := h }) ∧
      (∀ (w : Word) (u : State), busFetch s.pc .word { s with cpc := s.pc } = .ok (w, u) →
        (∀ (i : Instr) (v : State), decodeWord w = .ok i → exec i (atStepFive u) = .next v →
          step s = .next (afterStepSeven v)) ∧
        (∀ (i : Instr) (r : HostFault) (h : List DeviceEvent), decodeWord w = .ok i →
          exec i (atStepFive u) = .fault (.hostFault r h) →
          step s = .next { s with runState := .halted, haltReason := some r, devHistory := h }) ∧
        (∀ e : DecodeError, decodeWord w = .error e →
          step s = .next (afterStepSeven (throwException .illegalInstruction (atStepFive u))))))

/-- 40_tick_pipeline.md R173, 20_memory.md R98: what is fetched from a memory device or ROM is the word of the four
bytes at the address, least significant first, and decoding it is decoding those bytes. -/
def Obligations.FetchReadsFourBytes : Prop :=
  ∀ (s : State) (a : Word) (b : Binding) (base : Nat),
    a.toNat % 4 = 0 → Reaches s a .fetch .word b → Stored b base →
    busFetch a .word s = .ok (wordAt s.mem (cell b base a), s) ∧
    ∀ (i : Instr) (rest : List Byte),
      decode ([s.mem.read (cell b base a), s.mem.read (cell b base a + 1), s.mem.read (cell b base a + 2),
        s.mem.read (cell b base a + 3)] ++ rest) = .ok (i, rest) ↔ decodeWord (wordAt s.mem (cell b base a)) = .ok i

/-- 40_tick_pipeline.md R172: the step-1 exception, all it does and all it skips (D27); that EPC is cpc - 4 and BD
is 1 is the spec's own derivation from R386. -/
def Obligations.MisalignedPcTrapsAtStepOne : Prop :=
  ∀ s : State, s.runState = .running → s.pc.toNat % 4 ≠ 0 →
    ∃ t, step s = .next t ∧ t.cpc = s.pc ∧ t.getC0 13 = 0x80000010 ∧ t.getC0 14 = s.pc - 4 ∧
      t.pc = (if srBit s 22 then 0xBFC00180 else 0x80000080) ∧ t.npc = t.pc + 4 ∧
      bits (t.getC0 12) 0 2 = 0 ∧ bits (t.getC0 12) 2 4 = bits (s.getC0 12) 0 4 ∧
      bits (t.getC0 12) 6 26 = bits (s.getC0 12) 6 26 ∧
      (∀ k : Reg, k ≠ 12 → k ≠ 13 → k ≠ 14 → t.getC0 k = s.getC0 k) ∧
      { t with cpc := s.cpc, pc := s.pc, npc := s.npc, c0regs := s.c0regs } = s

/-- 40_tick_pipeline.md R180: a tick that halts has recorded a reason and left everything else as it stood at its
start (D25), but for the device accesses it had already made, which stay recorded (the model's reading, log 5). -/
def Obligations.HostFaultLeavesTickStartState : Prop :=
  ∀ s t : State, s.runState = .running → step s = .next t → t.runState = .halted →
    (∃ r, t.haltReason = some r) ∧ s.devHistory <+: t.devHistory ∧
      { t with runState := s.runState, haltReason := s.haltReason, devHistory := s.devHistory } = s

/-- 10_state.md R39, 40_tick_pipeline.md R174, R185: unless it raises, an instruction leaves pc at the old npc, so the
word after a branch always runs next; npc is four beyond it unless the instruction is a branch or jump. -/
def Obligations.NextInstructionIsAtOldNpc : Prop :=
  ∀ (i : Instr) (s t : State), exec i s = .next t →
    (∃ c, t = throwException c s) ∨ (t.pc = s.pc ∧ (i.isControl = false → t.npc = s.npc))

/-! ## Encoding -/

/-- 30_encoding.md R130 to R142: decoding the word of a well-formed instruction gives the instruction back, every
operand included. -/
def Obligations.DecodeOfEncode : Prop := ∀ i : Instr, i.wf = true → decodeWord (encode i) = .ok i

/-- 30_encoding.md R142: a word decodes to `i` by the bits of `i`'s row mask, and only the row's mask and fields
matter (D20); 0x00200000 is an SLL that writes nothing. -/
def Obligations.DecodeReadsOnlyTheRow : Prop :=
  (∀ (w : Word) (i : Instr), decodeWord w = .ok i → w &&& i.rowMask = i.rowMatch ∧ i.wf = true) ∧
  (∀ (w w' : Word) (i : Instr), decodeWord w = .ok i →
    w' &&& (i.rowMask ||| i.rowFields) = w &&& (i.rowMask ||| i.rowFields) → decodeWord w' = .ok i) ∧
  decodeWord 0x00200000 = .ok (.sll 0 0 0) ∧ ∀ s : State, WritesReg (.sll 0 0 0) s 0 0

/-- 45_system.md R357: the listed words, and no others, are reserved, and every one of them raises
IllegalInstruction (D19). -/
def Obligations.ReservedWordsRaise : Prop :=
  (∀ w : Word, Reserved w ↔ ∀ i : Instr, decodeWord w ≠ .ok i) ∧
  ∀ (w : Word) (s : State), Reserved w → ∃ t, executeWord w s = .next t ∧ IsEntry s t 10

/-- Words written out from the encodings of 30_encoding.md, one or more of each family (95_test_vectors.md). -/
def Obligations.SpecWordsDecode : Prop :=
  decodeWord 0x01095020 = .ok (.add 8 9 10) ∧ decodeWord 0x000857C3 = .ok (.sra 8 10 31) ∧
  decodeWord 0x01285004 = .ok (.sllv 9 8 10) ∧ decodeWord 0x3C081234 = .ok (.lui 8 0x1234) ∧
  decodeWord 0x0109001B = .ok (.divu 8 9) ∧ decodeWord 0x8C88FFFC = .ok (.lw 4 8 0xFFFC) ∧
  decodeWord 0xB8880203 = .ok (.swr 4 8 0x203) ∧ decodeWord 0x1509FFFF = .ok (.bne 8 9 0xFFFF) ∧
  decodeWord 0x05110004 = .ok (.bgezal 8 4) ∧ decodeWord 0x0FF00010 = .ok (.jal 0x3F00010) ∧
  decodeWord 0x0100F809 = .ok (.jalr 8 31) ∧ decodeWord 0x0000000C = .ok (.syscall 0) ∧
  decodeWord 0x40886000 = .ok (.mtc0 8 12) ∧ decodeWord 0x42000010 = .ok .rfe ∧
  decodeWord 0x48000000 = .ok (.cop2 0)

/-! ## Exceptions and system instructions -/

/-- 60_exceptions.md R382 (with R381's codes, R383 to R387, D39 to D41): what throw_exception does for each
cause. -/
def Obligations.ThrowExceptionEntersHandler : Prop :=
  ∀ s : State,
    IsEntry s (throwException .addressErrorLoad s) 4 ∧ IsEntry s (throwException .addressErrorStore s) 5 ∧
    IsEntry s (throwException .syscall s) 8 ∧ IsEntry s (throwException .break_ s) 9 ∧
    IsEntry s (throwException .illegalInstruction s) 10 ∧ IsEntry s (throwException .coprocessorUnusable s) 11 ∧
    IsEntry s (throwException .overflow s) 12

/-- 45_system.md R350, R351, R355: SYSCALL, BREAK and the words of coprocessors 1 and 3 enter their exception, in every
state and whatever their operand bits are. -/
def Obligations.TrapInstructionsEnter : Prop :=
  ∀ (s : State) (code : BitVec 20) (f : BitVec 26),
    EntersException (.syscall code) s 8 ∧ EntersException (.brk code) s 9 ∧
    EntersException (.cop1 f) s 11 ∧ EntersException (.cop3 f) s 11 ∧
    EntersException (.lwc0 f) s 11 ∧ EntersException (.lwc1 f) s 11 ∧ EntersException (.lwc3 f) s 11 ∧
    EntersException (.swc0 f) s 11 ∧ EntersException (.swc1 f) s 11 ∧ EntersException (.swc3 f) s 11

/-- 45_system.md R356 (D24): the words with opcode 0x12, 0x32 or 0x3A raise CoprocessorUnusable with CU2 = 0 and stop
with Unimplemented of the word with CU2 = 1. -/
def Obligations.GteFamilyDependsOnCu2 : Prop :=
  ∀ (s : State) (f : BitVec 26),
    decodeWord ((0x12 : BitVec 6) ++ f) = .ok (.cop2 f) ∧ decodeWord ((0x32 : BitVec 6) ++ f) = .ok (.lwc2 f) ∧
    decodeWord ((0x3A : BitVec 6) ++ f) = .ok (.swc2 f) ∧
    (srBit s 30 = false →
      EntersException (.cop2 f) s 11 ∧ EntersException (.lwc2 f) s 11 ∧ EntersException (.swc2 f) s 11) ∧
    (srBit s 30 = true →
      exec (.cop2 f) s = .fault (.hostFault (.unimplemented ((0x12 : BitVec 6) ++ f)) s.devHistory) ∧
      exec (.lwc2 f) s = .fault (.hostFault (.unimplemented ((0x32 : BitVec 6) ++ f)) s.devHistory) ∧
      exec (.swc2 f) s = .fault (.hostFault (.unimplemented ((0x3A : BitVec 6) ++ f)) s.devHistory))

/-- 45_system.md R354 (D42): every word with RFE's opcode, rs and funct is RFE; SR[3:0] := SR[5:2], SR[5:4] and the
rest of SR unchanged, nothing else changed. -/
def Obligations.RfePopsModeStack : Prop :=
  (∀ w : Word, bits w 26 6 = 0x10 → bits w 21 5 = 0x10 → bits w 0 6 = 0x10 → decodeWord w = .ok .rfe) ∧
  ∀ s : State, ∃ t, exec .rfe s = .next t ∧
    bits (t.getC0 12) 0 4 = bits (s.getC0 12) 2 4 ∧ bits (t.getC0 12) 4 28 = bits (s.getC0 12) 4 28 ∧
    (∀ k : Reg, k ≠ 12 → t.getC0 k = s.getC0 k) ∧ { t with c0regs := s.c0regs } = s

/-- 60_exceptions.md R384, R394, 45_system.md R354: an RFE in the handler gives back the current and previous pairs of
the mode stack that the exception pushed; the old pair becomes the old previous one, and SR[31:6] survives. -/
def Obligations.RfeUndoesExceptionEntry : Prop :=
  ∀ (c : Cause) (s : State), ∃ t, exec .rfe (throwException c s) = .next t ∧
    bits (t.getC0 12) 0 4 = bits (s.getC0 12) 0 4 ∧ bits (t.getC0 12) 4 2 = bits (s.getC0 12) 2 2 ∧
    bits (t.getC0 12) 6 26 = bits (s.getC0 12) 6 26

/-- 45_system.md R352, R353: MFC0 stages the slot's value like a load; MTC0 writes all 32 bits of any slot. -/
def Obligations.Cop0Moves : Prop :=
  ∀ (s : State) (rt rd : Reg),
    exec (.mfc0 rt rd) s = .next (staged s rt (s.getC0 rd)) ∧
    ∃ t, exec (.mtc0 rt rd) s = .next t ∧
      (∀ k : Reg, t.getC0 k = if k = rd then s.getReg rt else s.getC0 k) ∧ { t with c0regs := s.c0regs } = s

/-- 10_state.md R42: a COP0 slot changes by MTC0 to it; SR also by RFE; SR, Cause and EPC also by an exception. -/
def Obligations.Cop0SlotWriters : Prop :=
  ∀ (i : Instr) (s t : State) (k : Reg), exec i s = .next t → t.getC0 k ≠ s.getC0 k →
    (∃ rt, i = .mtc0 rt k) ∨ (i = .rfe ∧ k = 12) ∨
      ((k = 12 ∨ k = 13 ∨ k = 14) ∧ ∃ c, t = throwException c s)

/-! ## Arithmetic -/

/-- 41_alu.md R203, R205, R210, R211: ADDU, SUBU, SLT, SLTU. -/
def Obligations.RegisterArithmeticResults : Prop :=
  ∀ (s : State) (rs rt rd : Reg),
    (∃ v, WritesReg (.addu rs rt rd) s rd v ∧ v.toNat = ((s.getReg rs).toNat + (s.getReg rt).toNat) % 2 ^ 32) ∧
    (∃ v, WritesReg (.subu rs rt rd) s rd v ∧
      v.toNat = ((s.getReg rs).toNat + 2 ^ 32 - (s.getReg rt).toNat) % 2 ^ 32) ∧
    WritesReg (.slt rs rt rd) s rd (if (s.getReg rs).toInt < (s.getReg rt).toInt then 1 else 0) ∧
    WritesReg (.sltu rs rt rd) s rd (if (s.getReg rs).toNat < (s.getReg rt).toNat then 1 else 0)

/-- 41_alu.md R206 to R209, R222 to R224: the logical instructions, bit by bit; the immediates are zero-extended. -/
def Obligations.LogicalResults : Prop :=
  ∀ (s : State) (rs rt rd : Reg) (imm : BitVec 16),
    (∃ v, WritesReg (.and rs rt rd) s rd v ∧
      ∀ k < 32, v.getLsbD k = ((s.getReg rs).getLsbD k && (s.getReg rt).getLsbD k)) ∧
    (∃ v, WritesReg (.or rs rt rd) s rd v ∧
      ∀ k < 32, v.getLsbD k = ((s.getReg rs).getLsbD k || (s.getReg rt).getLsbD k)) ∧
    (∃ v, WritesReg (.xor rs rt rd) s rd v ∧
      ∀ k < 32, v.getLsbD k = ((s.getReg rs).getLsbD k != (s.getReg rt).getLsbD k)) ∧
    (∃ v, WritesReg (.nor rs rt rd) s rd v ∧
      ∀ k < 32, v.getLsbD k = !((s.getReg rs).getLsbD k || (s.getReg rt).getLsbD k)) ∧
    (∃ v, WritesReg (.andi rs rt imm) s rt v ∧
      ∀ k < 32, v.getLsbD k = ((s.getReg rs).getLsbD k && (decide (k < 16) && imm.getLsbD k))) ∧
    (∃ v, WritesReg (.ori rs rt imm) s rt v ∧
      ∀ k < 32, v.getLsbD k = ((s.getReg rs).getLsbD k || (decide (k < 16) && imm.getLsbD k))) ∧
    (∃ v, WritesReg (.xori rs rt imm) s rt v ∧
      ∀ k < 32, v.getLsbD k = ((s.getReg rs).getLsbD k != (decide (k < 16) && imm.getLsbD k)))

/-- 41_alu.md R212 to R217: shifts as multiplication and division by a power of two; the register forms use
x[rs][4:0]. -/
def Obligations.ShiftResults : Prop :=
  ∀ (s : State) (rs rt rd : Reg) (n : Nat),
    (∃ v, WritesReg (.sll rt rd n) s rd v ∧ v.toNat = (s.getReg rt).toNat * 2 ^ n % 2 ^ 32) ∧
    (∃ v, WritesReg (.srl rt rd n) s rd v ∧ v.toNat = (s.getReg rt).toNat / 2 ^ n) ∧
    (∃ v, WritesReg (.sra rt rd n) s rd v ∧ v.toInt = (s.getReg rt).toInt / 2 ^ n) ∧
    (∃ v, WritesReg (.sllv rs rt rd) s rd v ∧
      v.toNat = (s.getReg rt).toNat * 2 ^ ((s.getReg rs).toNat % 32) % 2 ^ 32) ∧
    (∃ v, WritesReg (.srlv rs rt rd) s rd v ∧
      v.toNat = (s.getReg rt).toNat / 2 ^ ((s.getReg rs).toNat % 32)) ∧
    (∃ v, WritesReg (.srav rs rt rd) s rd v ∧
      v.toInt = (s.getReg rt).toInt / 2 ^ ((s.getReg rs).toNat % 32))

/-- 41_alu.md R219 to R221, R225: ADDIU, SLTI, SLTIU (the immediate sign-extended) and LUI. -/
def Obligations.ImmediateArithmeticResults : Prop :=
  ∀ (s : State) (rs rt : Reg) (imm : BitVec 16),
    (∃ v, WritesReg (.addiu rs rt imm) s rt v ∧
      (v.toNat : Int) = ((s.getReg rs).toNat + imm.toInt) % 2 ^ 32) ∧
    WritesReg (.slti rs rt imm) s rt (if (s.getReg rs).toInt < imm.toInt then 1 else 0) ∧
    WritesReg (.sltiu rs rt imm) s rt (if ((s.getReg rs).toNat : Int) < imm.toInt % 2 ^ 32 then 1 else 0) ∧
    (∃ v, WritesReg (.lui rt imm) s rt v ∧ v.toNat = imm.toNat * 2 ^ 16)

/-- 41_alu.md R200: ADD, ADDI and SUB write the exact signed result when it fits 32 bits, and otherwise raise Overflow
and write no register (D28), register 0 included; the sign-bit tests say the same. -/
def Obligations.SignedOverflowTraps : Prop :=
  (∀ (s : State) (rs rt rd : Reg) (imm : BitVec 16),
    (if -2 ^ 31 ≤ (s.getReg rs).toInt + (s.getReg rt).toInt ∧ (s.getReg rs).toInt + (s.getReg rt).toInt < 2 ^ 31 then
      ∃ v, WritesReg (.add rs rt rd) s rd v ∧ v.toInt = (s.getReg rs).toInt + (s.getReg rt).toInt
     else EntersException (.add rs rt rd) s 12) ∧
    (if -2 ^ 31 ≤ (s.getReg rs).toInt + imm.toInt ∧ (s.getReg rs).toInt + imm.toInt < 2 ^ 31 then
      ∃ v, WritesReg (.addi rs rt imm) s rt v ∧ v.toInt = (s.getReg rs).toInt + imm.toInt
     else EntersException (.addi rs rt imm) s 12) ∧
    (if -2 ^ 31 ≤ (s.getReg rs).toInt - (s.getReg rt).toInt ∧ (s.getReg rs).toInt - (s.getReg rt).toInt < 2 ^ 31 then
      ∃ v, WritesReg (.sub rs rt rd) s rd v ∧ v.toInt = (s.getReg rs).toInt - (s.getReg rt).toInt
     else EntersException (.sub rs rt rd) s 12)) ∧
  (∀ a b : Word,
    (¬(-2 ^ 31 ≤ a.toInt + b.toInt ∧ a.toInt + b.toInt < 2 ^ 31) ↔
      a.getLsbD 31 = b.getLsbD 31 ∧ (a + b).getLsbD 31 ≠ a.getLsbD 31) ∧
    (¬(-2 ^ 31 ≤ a.toInt - b.toInt ∧ a.toInt - b.toInt < 2 ^ 31) ↔
      a.getLsbD 31 ≠ b.getLsbD 31 ∧ (a - b).getLsbD 31 ≠ a.getLsbD 31))

/-- 42_muldiv.md R260, R262, R263: hi and lo hold the exact 64-bit product; nothing else changes. -/
def Obligations.MultiplyGivesExactProduct : Prop :=
  ∀ (s : State) (rs rt : Reg),
    (∃ h l : Word, exec (.mult rs rt) s = .next { s with hi := h, lo := l } ∧
      (h ++ l : BitVec 64).toInt = (s.getReg rs).toInt * (s.getReg rt).toInt) ∧
    (∃ h l : Word, exec (.multu rs rt) s = .next { s with hi := h, lo := l } ∧
      (h ++ l : BitVec 64).toNat = (s.getReg rs).toNat * (s.getReg rt).toNat)

/-- 42_muldiv.md R261 (R264, R265; D30): DIV and DIVU in each case of the table. The ordinary signed quotient is truncated
toward zero: the remainder is smaller than the divisor and has the dividend's sign or is 0. -/
def Obligations.DivideCases : Prop :=
  ∀ (s : State) (rs rt : Reg) (n d : Word), n = s.getReg rs → d = s.getReg rt →
    (d = 0 → 0 ≤ n.toInt → exec (.div rs rt) s = .next { s with hi := n, lo := 0xFFFFFFFF }) ∧
    (d = 0 → n.toInt < 0 → exec (.div rs rt) s = .next { s with hi := n, lo := 0x00000001 }) ∧
    (n = 0x80000000 → d = 0xFFFFFFFF → exec (.div rs rt) s = .next { s with hi := 0, lo := 0x80000000 }) ∧
    (d ≠ 0 → ¬(n = 0x80000000 ∧ d = 0xFFFFFFFF) →
      ∃ q r : Word, exec (.div rs rt) s = .next { s with hi := r, lo := q } ∧
        n.toInt = d.toInt * q.toInt + r.toInt ∧ |r.toInt| < |d.toInt| ∧
        (0 < r.toInt → 0 < n.toInt) ∧ (r.toInt < 0 → n.toInt < 0)) ∧
    (d = 0 → exec (.divu rs rt) s = .next { s with hi := n, lo := 0xFFFFFFFF }) ∧
    (d ≠ 0 → ∃ q r : Word, exec (.divu rs rt) s = .next { s with hi := r, lo := q } ∧
      n.toNat = d.toNat * q.toNat + r.toNat ∧ r.toNat < d.toNat)

/-- 42_muldiv.md R266 to R269: the hi/lo moves. -/
def Obligations.HiLoMoves : Prop :=
  ∀ (s : State) (r : Reg),
    WritesReg (.mfhi r) s r s.hi ∧ WritesReg (.mflo r) s r s.lo ∧
    exec (.mthi r) s = .next { s with hi := s.getReg r } ∧ exec (.mtlo r) s = .next { s with lo := s.getReg r }

/-- 10_state.md R35: hi and lo are mutated only by MULT, MULTU, DIV, DIVU, MTHI and MTLO. -/
def Obligations.HiLoWriters : Prop :=
  ∀ (i : Instr) (s t : State), exec i s = .next t → i.writesHiLo = false → t.hi = s.hi ∧ t.lo = s.lo

/-! ## Loads and stores -/

/-- 43_loadstore.md R283 to R287: the delayed loads from a memory device or ROM stage the extended value and change
nothing else; only LW looks at isolation. -/
def Obligations.DelayedLoadsFromStorage : Prop :=
  ∀ (s : State) (rs rt : Reg) (imm : BitVec 16) (b : Binding) (base : Nat), Stored b base →
    (Reaches s (ea s rs imm) .fetch .byte b →
      exec (.lb rs rt imm) s = .next (staged s rt ((s.mem.read (cell b base (ea s rs imm))).signExtend 32)) ∧
      exec (.lbu rs rt imm) s = .next (staged s rt ((s.mem.read (cell b base (ea s rs imm))).zeroExtend 32))) ∧
    (Reaches s (ea s rs imm) .fetch .half b → (ea s rs imm).toNat % 2 = 0 →
      exec (.lh rs rt imm) s = .next (staged s rt ((halfAt s.mem (cell b base (ea s rs imm))).signExtend 32)) ∧
      exec (.lhu rs rt imm) s = .next (staged s rt ((halfAt s.mem (cell b base (ea s rs imm))).zeroExtend 32))) ∧
    (Reaches s (ea s rs imm) .fetch .word b → (ea s rs imm).toNat % 4 = 0 → srBit s 16 = false →
      exec (.lw rs rt imm) s = .next (staged s rt (wordAt s.mem (cell b base (ea s rs imm)))))

/-- 43_loadstore.md R281: misaligned halfword and word accesses raise AddressErrorLoad or AddressErrorStore, under
isolation too (D33), and do nothing else (D28, D41). -/
def Obligations.MisalignedAccessesTrap : Prop :=
  ∀ (s : State) (rs rt : Reg) (imm : BitVec 16),
    ((ea s rs imm).toNat % 2 ≠ 0 →
      EntersException (.lh rs rt imm) s 4 ∧ EntersException (.lhu rs rt imm) s 4 ∧
      EntersException (.sh rs rt imm) s 5) ∧
    ((ea s rs imm).toNat % 4 ≠ 0 →
      EntersException (.lw rs rt imm) s 4 ∧ EntersException (.sw rs rt imm) s 5)

/-- 43_loadstore.md R282: with isolation set, aligned stores and an aligned LW change nothing; the other loads do what
they do whatever COP0 holds (D31, D32). -/
def Obligations.IsolationSuppressesStoresAndLw : Prop :=
  (∀ (s : State) (rs rt : Reg) (imm : BitVec 16), srBit s 16 = true →
    exec (.sb rs rt imm) s = .next s ∧ exec (.swl rs rt imm) s = .next s ∧ exec (.swr rs rt imm) s = .next s ∧
    ((ea s rs imm).toNat % 2 = 0 → exec (.sh rs rt imm) s = .next s) ∧
    ((ea s rs imm).toNat % 4 = 0 → exec (.sw rs rt imm) s = .next s ∧ exec (.lw rs rt imm) s = .next s)) ∧
  (∀ (s : State) (c : RegFile) (rs rt : Reg) (imm : BitVec 16) (i : Instr),
    (i = .lb rs rt imm ∨ i = .lbu rs rt imm ∨ i = .lwl rs rt imm ∨ i = .lwr rs rt imm ∨
      ((i = .lh rs rt imm ∨ i = .lhu rs rt imm) ∧ (ea s rs imm).toNat % 2 = 0)) →
    (∀ t, exec i s = .next t → exec i { s with c0regs := c } = .next { t with c0regs := c }) ∧
    (∀ f, exec i s = .fault f → exec i { s with c0regs := c } = .fault f))

/-- 43_loadstore.md R291, R292: LWL fills the register's bytes from the top with the memory bytes at and below ea, LWR
from the bottom with those at and above it; the register's other bytes stay; the write is not delayed. -/
def Obligations.MergedLoadsFromStorage : Prop :=
  ∀ (s : State) (rs rt : Reg) (imm : BitVec 16) (b : Binding) (base : Nat), Stored b base →
    Reaches s (eaWord s rs imm) .fetch .word b →
    (∃ v, WritesReg (.lwl rs rt imm) s rt v ∧ ∀ j < 4, wordByte v j =
      if 3 ≤ j + lane s rs imm then s.mem.read (cell b base (eaWord s rs imm) + (j + lane s rs imm - 3))
      else wordByte (s.getReg rt) j) ∧
    (∃ v, WritesReg (.lwr rs rt imm) s rt v ∧ ∀ j < 4, wordByte v j =
      if j + lane s rs imm ≤ 3 then s.mem.read (cell b base (eaWord s rs imm) + (j + lane s rs imm))
      else wordByte (s.getReg rt) j)

/-- 43_loadstore.md R288 to R290: SB, SH and SW to a memory device store the register's low bytes, least significant
first, at the address's cell; every other byte and every other field of the state is as before. -/
def Obligations.StoresToMemory : Prop :=
  ∀ (s : State) (rs rt : Reg) (imm : BitVec 16) (b : Binding) (base : Nat), s.mem.wf = true →
    b.device = .memory base → srBit s 16 = false →
    (Reaches s (ea s rs imm) .store .byte b →
      ∃ m, exec (.sb rs rt imm) s = .next { s with mem := m } ∧
        m.read (cell b base (ea s rs imm)) = wordByte (s.getReg rt) 0 ∧
        ∀ k, k ≠ cell b base (ea s rs imm) → m.read k = s.mem.read k) ∧
    (Reaches s (ea s rs imm) .store .half b → (ea s rs imm).toNat % 2 = 0 →
      ∃ m, exec (.sh rs rt imm) s = .next { s with mem := m } ∧
        (∀ j < 2, m.read (cell b base (ea s rs imm) + j) = wordByte (s.getReg rt) j) ∧
        ∀ k, (k < cell b base (ea s rs imm) ∨ cell b base (ea s rs imm) + 2 ≤ k) → m.read k = s.mem.read k) ∧
    (Reaches s (ea s rs imm) .store .word b → (ea s rs imm).toNat % 4 = 0 →
      ∃ m, exec (.sw rs rt imm) s = .next { s with mem := m } ∧
        (∀ j < 4, m.read (cell b base (ea s rs imm) + j) = wordByte (s.getReg rt) j) ∧
        ∀ k, (k < cell b base (ea s rs imm) ∨ cell b base (ea s rs imm) + 4 ≤ k) → m.read k = s.mem.read k)

/-- 43_loadstore.md R293, R294: SWL stores the register's top bytes at and below ea within the aligned word, SWR its
low bytes at and above ea; every other byte and every other field of the state is as before. -/
def Obligations.MergedStoresToMemory : Prop :=
  ∀ (s : State) (rs rt : Reg) (imm : BitVec 16) (b : Binding) (base : Nat), s.mem.wf = true →
    b.device = .memory base → srBit s 16 = false →
    Reaches s (eaWord s rs imm) .fetch .word b → Reaches s (eaWord s rs imm) .store .word b →
    (∃ m, exec (.swl rs rt imm) s = .next { s with mem := m } ∧
      (∀ j ≤ lane s rs imm, m.read (cell b base (eaWord s rs imm) + j) =
        wordByte (s.getReg rt) (3 + j - lane s rs imm)) ∧
      ∀ k, (k < cell b base (eaWord s rs imm) ∨ cell b base (eaWord s rs imm) + lane s rs imm < k) →
        m.read k = s.mem.read k) ∧
    (∃ m, exec (.swr rs rt imm) s = .next { s with mem := m } ∧
      (∀ j < 4 - lane s rs imm, m.read (cell b base (eaWord s rs imm) + lane s rs imm + j) =
        wordByte (s.getReg rt) j) ∧
      ∀ k, (k < cell b base (eaWord s rs imm) + lane s rs imm ∨ cell b base (eaWord s rs imm) + 4 ≤ k) →
        m.read k = s.mem.read k)

/-- 20_memory.md R102, R106: a load from an opaque device completes with some value of its width, which nothing
constrains, and records one fetch; memory and every other field are as before. -/
def Obligations.LoadsFromOpaqueDevices : Prop :=
  ∀ (s : State) (rs rt : Reg) (imm : BitVec 16) (b : Binding) (id : Nat), b.device = .opaqueUnit id →
    (Reaches s (ea s rs imm) .fetch .byte b →
      ∃ x : BitVec 8,
        exec (.lb rs rt imm) s = .next { staged s rt (x.signExtend 32) with
          devHistory := s.devHistory ++ [.fetch b (translateAddr (ea s rs imm) - b.start) .byte] } ∧
        exec (.lbu rs rt imm) s = .next { staged s rt (x.zeroExtend 32) with
          devHistory := s.devHistory ++ [.fetch b (translateAddr (ea s rs imm) - b.start) .byte] }) ∧
    (Reaches s (ea s rs imm) .fetch .half b → (ea s rs imm).toNat % 2 = 0 →
      ∃ x : BitVec 16,
        exec (.lh rs rt imm) s = .next { staged s rt (x.signExtend 32) with
          devHistory := s.devHistory ++ [.fetch b (translateAddr (ea s rs imm) - b.start) .half] } ∧
        exec (.lhu rs rt imm) s = .next { staged s rt (x.zeroExtend 32) with
          devHistory := s.devHistory ++ [.fetch b (translateAddr (ea s rs imm) - b.start) .half] }) ∧
    (Reaches s (ea s rs imm) .fetch .word b → (ea s rs imm).toNat % 4 = 0 → srBit s 16 = false →
      ∃ x : Word,
        exec (.lw rs rt imm) s = .next { staged s rt x with
          devHistory := s.devHistory ++ [.fetch b (translateAddr (ea s rs imm) - b.start) .word] }) ∧
    (Reaches s (eaWord s rs imm) .fetch .word b →
      (∃ t, exec (.lwl rs rt imm) s = .next t ∧ (∀ r : Reg, r ≠ 0 → r ≠ rt → t.getOut r = s.getOut r) ∧
        t.getOut 0 = 0 ∧
        (∀ j, rt ≠ 0 → j + lane s rs imm < 3 → wordByte (t.getOut rt) j = wordByte (s.getReg rt) j) ∧
        { t with outRegs := s.outRegs } =
          { s with devHistory := s.devHistory ++ [.fetch b (translateAddr (eaWord s rs imm) - b.start) .word] }) ∧
      (∃ t, exec (.lwr rs rt imm) s = .next t ∧ (∀ r : Reg, r ≠ 0 → r ≠ rt → t.getOut r = s.getOut r) ∧
        t.getOut 0 = 0 ∧
        (∀ j < 4, rt ≠ 0 → 3 < j + lane s rs imm → wordByte (t.getOut rt) j = wordByte (s.getReg rt) j) ∧
        { t with outRegs := s.outRegs } =
          { s with devHistory := s.devHistory ++ [.fetch b (translateAddr (eaWord s rs imm) - b.start) .word] }))

/-- 20_memory.md R102, R106: a store to an opaque device is recorded (binding, offset, width, value) and changes
nothing else; SWL and SWR record a fetch and then a store of the fetched word with the register's bytes in place
(43_loadstore.md R293, R294). The fetch entry of the record is the model's own (log 3). -/
def Obligations.StoresToOpaqueDevices : Prop :=
  ∀ (s : State) (rs rt : Reg) (imm : BitVec 16) (b : Binding) (id : Nat), b.device = .opaqueUnit id →
    srBit s 16 = false →
    (Reaches s (ea s rs imm) .store .byte b →
      exec (.sb rs rt imm) s = .next { s with devHistory := s.devHistory ++
        [.store b (translateAddr (ea s rs imm) - b.start) .byte (BitVec.ofNat 32 ((s.getReg rt).toNat % 2 ^ 8))] }) ∧
    (Reaches s (ea s rs imm) .store .half b → (ea s rs imm).toNat % 2 = 0 →
      exec (.sh rs rt imm) s = .next { s with devHistory := s.devHistory ++
        [.store b (translateAddr (ea s rs imm) - b.start) .half (BitVec.ofNat 32 ((s.getReg rt).toNat % 2 ^ 16))] }) ∧
    (Reaches s (ea s rs imm) .store .word b → (ea s rs imm).toNat % 4 = 0 →
      exec (.sw rs rt imm) s = .next { s with devHistory := s.devHistory ++
        [.store b (translateAddr (ea s rs imm) - b.start) .word (s.getReg rt)] }) ∧
    (Reaches s (eaWord s rs imm) .fetch .word b → Reaches s (eaWord s rs imm) .store .word b →
      ∃ m : Word,
        busFetch (eaWord s rs imm) .word s = .ok (m, { s with devHistory := s.devHistory ++
          [.fetch b (translateAddr (eaWord s rs imm) - b.start) .word] }) ∧
        (∃ x : Word,
          exec (.swl rs rt imm) s = .next { s with devHistory := s.devHistory ++
            [.fetch b (translateAddr (eaWord s rs imm) - b.start) .word,
             .store b (translateAddr (eaWord s rs imm) - b.start) .word x] } ∧
          ∀ j < 4, wordByte x j =
            if j ≤ lane s rs imm then wordByte (s.getReg rt) (3 + j - lane s rs imm) else wordByte m j) ∧
        (∃ x : Word,
          exec (.swr rs rt imm) s = .next { s with devHistory := s.devHistory ++
            [.fetch b (translateAddr (eaWord s rs imm) - b.start) .word,
             .store b (translateAddr (eaWord s rs imm) - b.start) .word x] } ∧
          ∀ j < 4, wordByte x j =
            if lane s rs imm ≤ j then wordByte (s.getReg rt) (j - lane s rs imm) else wordByte m j))

/-- 20_memory.md R89, R90: an access that no binding contains, or whose width the first one does not offer, stops with
that reason; SWL and SWR stop likewise where the fetch is offered and the store is not. -/
def Obligations.BusFaultReasons : Prop :=
  ∀ (i : Instr) (s : State) (k : AccessKind) (a : Word) (w : Width), firstAccess s i = some (k, a, w) →
    (route s.platform (translateAddr a) = none →
      exec i s = .fault (.hostFault (.unmapped (translateAddr a)) s.devHistory)) ∧
    (∀ b, route s.platform (translateAddr a) = some b → offers b k w = false →
      exec i s = .fault (.hostFault (.unsupportedWidth b k w) s.devHistory)) ∧
    (∀ b, route s.platform (translateAddr a) = some b → offers b .fetch .word = true → offers b .store .word = false →
      mergesStore i = true → ∃ h, exec i s = .fault (.hostFault (.unsupportedWidth b .store .word) h))

/-- 60_exceptions.md R402: which instructions can host-fault, and when; BusMisaligned never comes from the CPU. -/
def Obligations.OnlyTheseHostFault : Prop :=
  ∀ (i : Instr) (s : State) (r : HostFault) (h : List DeviceEvent), exec i s = .fault (.hostFault r h) →
    (∀ a w, r ≠ .busMisaligned a w) ∧
    ((gteFamily i = true ∧ srBit s 30 = true ∧ r = .unimplemented (encode i)) ∨
      ∃ k a w, firstAccess s i = some (k, a, w) ∧
        ((route s.platform (translateAddr a) = none ∧ r = .unmapped (translateAddr a)) ∨
          ∃ b k', route s.platform (translateAddr a) = some b ∧ offers b k' w = false ∧ r = .unsupportedWidth b k' w ∧
            (k' = k ∨ mergesStore i = true)))

/-- 60_exceptions.md R402: which instructions raise which exception, and when; where one raises none and goes on, it
leaves pc as step 3 set it. -/
def Obligations.OnlyTheseRaise : Prop :=
  ∀ (i : Instr) (s : State),
    (∀ code, raises s i = some code → EntersException i s code) ∧
    (raises s i = none → ∀ t, exec i s = .next t → t.pc = s.pc)

/-! ## Branches and jumps -/

/-- 44_control.md R320, R322 to R327: a taken branch sets npc to the delay slot's address plus four times the signed
offset (npc - 4 is the delay slot's address), a branch not taken changes nothing; no register is written. -/
def Obligations.ConditionalBranches : Prop :=
  ∀ (s : State) (rs rt : Reg) (imm : BitVec 16) (target : State),
    target = { s with npc := s.npc - 4 + BitVec.ofInt 32 (4 * imm.toInt) } →
    exec (.beq rs rt imm) s = .next (if s.getReg rs = s.getReg rt then target else s) ∧
    exec (.bne rs rt imm) s = .next (if s.getReg rs = s.getReg rt then s else target) ∧
    exec (.blez rs imm) s = .next (if (s.getReg rs).toInt ≤ 0 then target else s) ∧
    exec (.bgtz rs imm) s = .next (if (s.getReg rs).toInt ≤ 0 then s else target) ∧
    exec (.bltz rs imm) s = .next (if (s.getReg rs).toInt < 0 then target else s) ∧
    exec (.bgez rs imm) s = .next (if (s.getReg rs).toInt < 0 then s else target)

/-- 44_control.md R321, R328, R329: BLTZAL and BGEZAL write npc to register 31 in every case, and branch on the
condition read from the in bank. -/
def Obligations.LinkingBranches : Prop :=
  ∀ (s : State) (rs : Reg) (imm : BitVec 16) (i : Instr) (taken : Bool),
    ((i = .bltzal rs imm ∧ taken = (s.getReg rs).getLsbD 31) ∨
      (i = .bgezal rs imm ∧ taken = !(s.getReg rs).getLsbD 31)) →
    ∃ t, exec i s = .next t ∧
      (∀ r : Reg, t.getOut r = if r = 0 then 0 else if r = 31 then s.npc else s.getOut r) ∧
      t.npc = (if taken then s.npc - 4 + BitVec.ofInt 32 (4 * imm.toInt) else s.npc) ∧
      { t with outRegs := s.outRegs, npc := s.npc } = s

/-- 44_control.md R330 to R333: J and JAL go to imm26 << 2 within the region of npc, JR and JALR to the register's old
value; JAL links register 31 and JALR rd, with npc as step 3 left it. -/
def Obligations.JumpTargets : Prop :=
  ∀ (s : State) (rs rd : Reg) (imm : BitVec 26),
    (∃ target, exec (.j imm) s = .next { s with npc := target } ∧
      target.toNat = s.npc.toNat / 2 ^ 28 * 2 ^ 28 + imm.toNat * 4) ∧
    (∃ t, exec (.jal imm) s = .next t ∧ t.npc.toNat = s.npc.toNat / 2 ^ 28 * 2 ^ 28 + imm.toNat * 4 ∧
      (∀ r : Reg, t.getOut r = if r = 0 then 0 else if r = 31 then s.npc else s.getOut r) ∧
      { t with outRegs := s.outRegs, npc := s.npc } = s) ∧
    exec (.jr rs) s = .next { s with npc := s.getReg rs } ∧
    (∃ t, exec (.jalr rs rd) s = .next t ∧ t.npc = s.getReg rs ∧
      (∀ r : Reg, t.getOut r = if r = 0 then 0 else if r = rd then s.npc else s.getOut r) ∧
      { t with outRegs := s.outRegs, npc := s.npc } = s)

/-! ## Whole-machine rules -/

/-- 40_tick_pipeline.md R176, R182, 20_memory.md R86: a handler never writes the in bank, cpc, the run state, the
breakpoints, the counter or the binding list. -/
def Obligations.HandlersLeaveTheTicksOwnState : Prop :=
  ∀ (i : Instr) (s t : State), exec i s = .next t →
    t.inRegs = s.inRegs ∧ t.cpc = s.cpc ∧ t.runState = s.runState ∧ t.haltReason = s.haltReason ∧
    t.breakpoints = s.breakpoints ∧ t.instrExecCnt = s.instrExecCnt ∧ t.platform = s.platform

/-- 40_tick_pipeline.md R184, R175 to R178: the instruction that runs while a load is pending does what it does with
any out bank `o` in place of the one that holds the loaded value, so it reads the old value. After its tick the
register it wrote through set_reg holds what it wrote, so its write wins; else the load's target holds the loaded value
(also where the instruction raised), and every other register its own; all else is as the instruction left it, its own
pending load included. The last clause is the document's example with ADDU for ADD: the sum of the old values. -/
def Obligations.LoadDelaySlotSeesOldValue : Prop :=
  ∀ (s u : State) (w : Word), s.runState = .running → s.pc.toNat % 4 = 0 →
    busFetch s.pc .word { s with cpc := s.pc } = .ok (w, u) →
    (∀ (i : Instr) (o : RegFile) (v : State), decodeWord w = .ok i →
      exec i { atStepFive u with outRegs := o } = .next v →
      ∃ t, step s = .next t ∧
        (∀ r : Reg, t.getReg r = if r = 0 then 0 else if raises s i = none ∧ setRegTarget i = some r then v.getOut r
          else if r = s.loadDelayTarget then s.loadDelayValue else s.getOut r) ∧
        t = afterStepSeven { v with outRegs := t.outRegs }) ∧
    (∀ rs rt rd : Reg, decodeWord w = .ok (.addu rs rt rd) →
      ∃ t, step s = .next t ∧
        (∀ r : Reg, t.getReg r = if r = 0 then 0 else if r = rd then s.getReg rs + s.getReg rt
          else if r = s.loadDelayTarget then s.loadDelayValue else s.getOut r) ∧
        t.loadDelayTarget = 0 ∧ t.loadDelayValue = 0)

/-- 10_state.md R31, R54: from any state, one a load_state of differing banks left included (D43), a tick that reaches
step 6 ends with agreeing banks and register 0 at 0 in both. -/
def Obligations.TickRestoresBanks : Prop :=
  ∀ s t : State, s.runState = .running → s.pc.toNat % 4 = 0 → step s = .next t → t.runState ≠ .halted →
    t.banksAgree ∧ t.zeroReg

/-- 10_state.md R48: no rule's result depends on instr_exec_cnt: changing it before a tick changes the tick's result in
that field only, and by the same amount. -/
def Obligations.CounterIsInvisible : Prop :=
  ∀ (s t : State) (d : Word), step s = .next t →
    step { s with instrExecCnt := s.instrExecCnt + d } = .next { t with instrExecCnt := t.instrExecCnt + d }

/-- 10_state.md R43, 60_exceptions.md R394, R395: an instruction other than MFC0 of SR does the same whatever SR holds
outside bits 16, 22 and 30: the mode and interrupt bits are not read. The results differ in SR alone, and there again
outside those bits only; after an MTC0 to SR not at all. So it is for a step, which gives back the relation it started
from. -/
def Obligations.StatusStorageBitsAreNotRead : Prop :=
  (∀ (i : Instr) (s : State) (sr : Word), (∀ rt, i ≠ .mfc0 rt 12) → SrAgrees s sr →
    (∀ t, exec i s = .next t → ∃ sr', exec i (withSr s sr) = .next (withSr t sr') ∧ SrAgrees t sr' ∧
      ∀ rt, i = .mtc0 rt 12 → sr' = t.getC0 12) ∧
    (∀ f, exec i s = .fault f → exec i (withSr s sr) = .fault f)) ∧
  (∀ (s t : State) (sr : Word), SrAgrees s sr →
    (∀ w u rt, busFetch s.pc .word { s with cpc := s.pc } = .ok (w, u) → decodeWord w ≠ .ok (.mfc0 rt 12)) →
    step s = .next t → ∃ sr', step (withSr s sr) = .next (withSr t sr') ∧ SrAgrees t sr')

/-- 20_memory.md R104, R106: a tick only adds to the record of device accesses, and at most three of them. A halting
tick adds too (the model's reading of R180 and D25, log 5). -/
def Obligations.DeviceRecordOnlyGrows : Prop :=
  ∀ s t : State, step s = .next t → ∃ es, t.devHistory = s.devHistory ++ es ∧ es.length ≤ 3

/-- 20_memory.md R95, R98, R99: on the default platform a tick changes no byte outside RAM and the scratchpad; the BIOS
image in particular stays. -/
def Obligations.OnlyRamAndScratchpadChange : Prop :=
  ∀ s t : State, s.platform = defaultPlatform → step s = .next t →
    t.platform = defaultPlatform ∧
    ∀ k, ¬(k < 0x200000) → ¬(0x1F800000 ≤ k ∧ k < 0x1F800400) → t.mem.read k = s.mem.read k

/-! ## The bus and memory -/

/-- 20_memory.md R81, R82: the mask table's segments and their physical ranges; the three windows on the same physical
address. -/
def Obligations.SegmentTranslation : Prop :=
  (∀ a : Word,
    (a.toNat < 0x80000000 → translateAddr a = a) ∧
    (0x80000000 ≤ a.toNat → a.toNat < 0xA0000000 → (translateAddr a).toNat = a.toNat - 0x80000000) ∧
    (0xA0000000 ≤ a.toNat → a.toNat < 0xC0000000 → (translateAddr a).toNat = a.toNat - 0xA0000000) ∧
    (0xC0000000 ≤ a.toNat → translateAddr a = a)) ∧
  (∀ a : Word, a.toNat < 0x20000000 →
    translateAddr a = a ∧ translateAddr (a + 0x80000000) = a ∧ translateAddr (a + 0xA0000000) = a)

/-- 20_memory.md R87, R88, R89 (D13, D16): the binding that answers is the first in registration order whose range contains the
address; with none, routing fails. -/
def Obligations.FirstMatchRouting : Prop :=
  ∀ (bs : List Binding) (p : Word),
    (∀ b, route bs p = some b ↔ ∃ pre post, bs = pre ++ b :: post ∧ (p - b.start).toNat < b.size.toNat ∧
      ∀ c ∈ pre, ¬(p - c.start).toNat < c.size.toNat) ∧
    (route bs p = none ↔ ∀ c ∈ bs, ¬(p - c.start).toNat < c.size.toNat)

/-- 20_memory.md R96: what the default platform leaves unmapped. -/
def Obligations.DefaultPlatformHoles : Prop :=
  ∀ p : Word, route defaultPlatform p = none ↔
    (0x00200000 ≤ p.toNat ∧ p.toNat ≤ 0x1EFFFFFF) ∨ (0x1F800400 ≤ p.toNat ∧ p.toNat ≤ 0x1F800FFF) ∨
    (0x1F803000 ≤ p.toNat ∧ p.toNat ≤ 0x1FBFFFFF) ∨ (0x1FC80000 ≤ p.toNat ∧ p.toNat ≤ 0xFFFFFFFF)

/-- 20_memory.md R98, R103: what a word store leaves is read back at every width, least significant byte first, and
every other byte stays. -/
def Obligations.LittleEndianReadBack : Prop :=
  ∀ (m : Memory) (c : Nat) (v : Word), m.wf = true →
    (m.writeLE c v .word).readLE c .word = v ∧
    (∀ j < 4, (m.writeLE c v .word).readLE (c + j) .byte = (v >>> (8 * j)) &&& 0xFF) ∧
    (m.writeLE c v .word).readLE c .half = v &&& 0xFFFF ∧
    (m.writeLE c v .word).readLE (c + 2) .half = v >>> 16 ∧
    (m.writeLE c v .word).wf = true ∧
    ∀ k, (k < c ∨ c + 4 ≤ k) → (m.writeLE c v .word).read k = m.read k

/-! ## The host's operations -/

/-- 70_reset_and_hazards.md R435: save_state then load_state restores every field of the 416-byte image exactly, and
leaves what is not in the image alone. -/
def Obligations.SaveThenLoadRestores : Prop :=
  ∀ s t : State, s.saveState.length = 416 ∧
    t.loadState s.saveState = some
      { t with
        loadDelayTarget := s.loadDelayTarget, loadDelayValue := s.loadDelayValue, inRegs := s.inRegs,
        outRegs := s.outRegs, hi := s.hi, lo := s.lo, cpc := s.cpc, pc := s.pc, npc := s.npc, c0regs := s.c0regs,
        instrExecCnt := s.instrExecCnt }

/-- 70_reset_and_hazards.md R435, D43: load_state accepts exactly the images of 416 bytes whose first word is below
32. -/
def Obligations.LoadStateAcceptsExactly : Prop :=
  ∀ (t : State) (b0 b1 b2 b3 : Byte) (rest : List Byte),
    ((t.loadState (b0 :: b1 :: b2 :: b3 :: rest)).isSome = true ↔
      rest.length = 412 ∧ b0.toNat < 32 ∧ b1 = 0 ∧ b2 = 0 ∧ b3 = 0) ∧
    ∀ image : List Byte, image.length ≠ 416 → t.loadState image = none

/-- 70_reset_and_hazards.md R436 (D47): run_until_change ticks at most `cap` times, and fewer only when the CPU is no longer
running; it ticks a running CPU only; the state it ends in is that many ticks on. -/
def Obligations.RunUntilChangeIsBounded : Prop :=
  ∀ (cap : Nat) (s : State),
    (runUntilChange cap s).1 ≤ cap ∧
    ((runUntilChange cap s).1 < cap → (runUntilChange cap s).2.runState ≠ .running) ∧
    (∀ k < (runUntilChange cap s).1, ∃ u : State,
      Host.Core.run Sys2Proof.core k s = .next u ∧ u.runState = .running) ∧
    Host.Core.run Sys2Proof.core (runUntilChange cap s).1 s = .next (runUntilChange cap s).2

/-- 70_reset_and_hazards.md R433, R434, D45, D46, 20_memory.md R86: set_state sets any state from any state; the
breakpoint operations insert or remove one address and keep the set in its form; connect appends one word-aligned
binding (the refusal of other ranges is the model's reading of D13, log 9). -/
def Obligations.HostOperationsTouchOneField : Prop :=
  ∀ (s : State) (r : RunState) (a : Word) (b : Binding),
    s.setRunState r = { s with runState := r } ∧
    { s.addBreakpoint a with breakpoints := s.breakpoints } = s ∧
    (∀ x, x ∈ (s.addBreakpoint a).breakpoints ↔ x = a ∨ x ∈ s.breakpoints) ∧
    { s.removeBreakpoint a with breakpoints := s.breakpoints } = s ∧
    (∀ x, x ∈ (s.removeBreakpoint a).breakpoints ↔ x ≠ a ∧ x ∈ s.breakpoints) ∧
    (s.breakpointsRising → (s.addBreakpoint a).breakpointsRising ∧ (s.removeBreakpoint a).breakpointsRising) ∧
    (b.start.toNat % 4 = 0 ∧ b.size.toNat % 4 = 0 → s.connect b = some { s with platform := s.platform ++ [b] }) ∧
    (¬(b.start.toNat % 4 = 0 ∧ b.size.toNat % 4 = 0) → s.connect b = none)
end

