-- ==== Sys2Proof/Laws/Encoding.lean ====
section
/-! SUPPORT. The fields of encoded words, and the row masks in terms of fields (30_encoding.md R131 to R142). -/

namespace Sys2Proof

/-! ## Bit fields -/

theorem bits_lt (v : Word) (lo len : Nat) : bits v lo len < 2 ^ len := Nat.mod_lt _ (Nat.two_pow_pos len)

theorem bits_ofNat (n lo len : Nat) (h : n < 2 ^ 32) : bits (BitVec.ofNat 32 n) lo len = n / 2 ^ lo % 2 ^ len := by
  unfold bits
  rw [BitVec.toNat_ofNat, Nat.mod_eq_of_lt h]

/-! ## Fields of the four formats -/

section formats

variable (op : Nat) (rs rt rd : Reg) (shamt funct : Nat) (imm16 : BitVec 16) (imm26 : BitVec 26) (code : BitVec 20)

theorem encodeR_bits (lo len : Nat) : bits (encodeR op rs rt rd shamt funct) lo len =
    (op % 64 * 2 ^ 26 + rs.val * 2 ^ 21 + rt.val * 2 ^ 16 + rd.val * 2 ^ 11 + shamt % 32 * 2 ^ 6 + funct % 64)
      / 2 ^ lo % 2 ^ len := bits_ofNat _ _ _ (by omega)

theorem encodeI_bits (lo len : Nat) : bits (encodeI op rs rt imm16) lo len =
    (op % 64 * 2 ^ 26 + rs.val * 2 ^ 21 + rt.val * 2 ^ 16 + imm16.toNat) / 2 ^ lo % 2 ^ len :=
  bits_ofNat _ _ _ (by have := imm16.isLt; omega)

theorem encodeJ_bits (lo len : Nat) : bits (encodeJ op imm26) lo len =
    (op % 64 * 2 ^ 26 + imm26.toNat) / 2 ^ lo % 2 ^ len :=
  bits_ofNat _ _ _ (by have := imm26.isLt; omega)

theorem encodeCode_bits (lo len : Nat) : bits (encodeCode op code funct) lo len =
    (op % 64 * 2 ^ 26 + code.toNat * 2 ^ 6 + funct % 64) / 2 ^ lo % 2 ^ len :=
  bits_ofNat _ _ _ (by have := code.isLt; omega)

@[simp] theorem encodeR_opcode : bits (encodeR op rs rt rd shamt funct) 26 6 = op % 64 := by
  rw [encodeR_bits]; omega

@[simp] theorem encodeR_rsBits : bits (encodeR op rs rt rd shamt funct) 21 5 = rs.val := by
  rw [encodeR_bits]; omega

@[simp] theorem encodeR_funct : bits (encodeR op rs rt rd shamt funct) 0 6 = funct % 64 := by
  rw [encodeR_bits]; omega

@[simp] theorem encodeR_rsOf : rsOf (encodeR op rs rt rd shamt funct) = rs := by
  apply Fin.ext; simp only [rsOf, Fin.ofNat, encodeR_bits]; omega

@[simp] theorem encodeR_rtOf : rtOf (encodeR op rs rt rd shamt funct) = rt := by
  apply Fin.ext; simp only [rtOf, Fin.ofNat, encodeR_bits]; omega

@[simp] theorem encodeR_rdOf : rdOf (encodeR op rs rt rd shamt funct) = rd := by
  apply Fin.ext; simp only [rdOf, Fin.ofNat, encodeR_bits]; omega

@[simp] theorem encodeR_shamtOf : shamtOf (encodeR op rs rt rd shamt funct) = shamt % 32 := by
  simp only [shamtOf, encodeR_bits]; omega

@[simp] theorem encodeI_opcode : bits (encodeI op rs rt imm16) 26 6 = op % 64 := by
  have := imm16.isLt; rw [encodeI_bits]; omega

@[simp] theorem encodeI_rtBits : bits (encodeI op rs rt imm16) 16 5 = rt.val := by
  have := imm16.isLt; rw [encodeI_bits]; omega

@[simp] theorem encodeI_rsOf : rsOf (encodeI op rs rt imm16) = rs := by
  have := imm16.isLt; apply Fin.ext; simp only [rsOf, Fin.ofNat, encodeI_bits]; omega

@[simp] theorem encodeI_rtOf : rtOf (encodeI op rs rt imm16) = rt := by
  have := imm16.isLt; apply Fin.ext; simp only [rtOf, Fin.ofNat, encodeI_bits]; omega

@[simp] theorem encodeI_imm16Of : imm16Of (encodeI op rs rt imm16) = imm16 := by
  have := imm16.isLt
  apply BitVec.eq_of_toNat_eq
  simp only [imm16Of, BitVec.toNat_ofNat, encodeI_bits]; omega

@[simp] theorem encodeJ_opcode : bits (encodeJ op imm26) 26 6 = op % 64 := by
  have := imm26.isLt; rw [encodeJ_bits]; omega

@[simp] theorem encodeJ_imm26Of : imm26Of (encodeJ op imm26) = imm26 := by
  have := imm26.isLt
  apply BitVec.eq_of_toNat_eq
  simp only [imm26Of, BitVec.toNat_ofNat, encodeJ_bits]; omega

@[simp] theorem encodeCode_opcode : bits (encodeCode op code funct) 26 6 = op % 64 := by
  have := code.isLt; rw [encodeCode_bits]; omega

@[simp] theorem encodeCode_funct : bits (encodeCode op code funct) 0 6 = funct % 64 := by
  have := code.isLt; rw [encodeCode_bits]; omega

@[simp] theorem encodeCode_codeOf : codeOf (encodeCode op code funct) = code := by
  have := code.isLt
  apply BitVec.eq_of_toNat_eq
  simp only [codeOf, BitVec.toNat_ofNat, encodeCode_bits]; omega

end formats

/-! ## Row masks as fields -/

/-- Bit `i` of a field, read off the word. -/
theorem testBit_bits (v : Word) (lo len i : Nat) :
    (bits v lo len).testBit i = (decide (i < len) && v.getLsbD (lo + i)) := by
  unfold bits
  rw [Nat.testBit_mod_two_pow, Nat.testBit_div_two_pow, Nat.add_comm]
  rfl

/-- The opcode mask 0xFC000000 keeps field 31:26. -/
theorem and_opcodeMask (v : Word) : v &&& 0xFC000000 = BitVec.ofNat 32 (bits v 26 6 * 2 ^ 26) := by
  apply BitVec.eq_of_getLsbD_eq
  intro i hi
  rw [BitVec.getLsbD_and, BitVec.getLsbD_ofNat, Nat.testBit_mul_two_pow, testBit_bits]
  interval_cases i <;> simp

/-- The SPECIAL mask 0xFC00003F keeps fields 31:26 and 5:0. -/
theorem and_specialMask (v : Word) :
    v &&& 0xFC00003F = BitVec.ofNat 32 (bits v 26 6 * 2 ^ 26) ||| BitVec.ofNat 32 (bits v 0 6) := by
  apply BitVec.eq_of_getLsbD_eq
  intro i hi
  rw [BitVec.getLsbD_and, BitVec.getLsbD_or, BitVec.getLsbD_ofNat, BitVec.getLsbD_ofNat, Nat.testBit_mul_two_pow,
    testBit_bits, testBit_bits]
  interval_cases i <;> simp

/-- The REGIMM mask 0xFC1F0000 keeps fields 31:26 and 20:16. -/
theorem and_regimmMask (v : Word) :
    v &&& 0xFC1F0000 = BitVec.ofNat 32 (bits v 26 6 * 2 ^ 26) ||| BitVec.ofNat 32 (bits v 16 5 * 2 ^ 16) := by
  apply BitVec.eq_of_getLsbD_eq
  intro i hi
  rw [BitVec.getLsbD_and, BitVec.getLsbD_or, BitVec.getLsbD_ofNat, BitVec.getLsbD_ofNat, Nat.testBit_mul_two_pow,
    Nat.testBit_mul_two_pow, testBit_bits, testBit_bits]
  interval_cases i <;> simp

/-- The COP0 move mask 0xFFE00000 keeps fields 31:26 and 25:21. -/
theorem and_cop0Mask (v : Word) :
    v &&& 0xFFE00000 = BitVec.ofNat 32 (bits v 26 6 * 2 ^ 26) ||| BitVec.ofNat 32 (bits v 21 5 * 2 ^ 21) := by
  apply BitVec.eq_of_getLsbD_eq
  intro i hi
  rw [BitVec.getLsbD_and, BitVec.getLsbD_or, BitVec.getLsbD_ofNat, BitVec.getLsbD_ofNat, Nat.testBit_mul_two_pow,
    Nat.testBit_mul_two_pow, testBit_bits, testBit_bits]
  interval_cases i <;> simp

/-- RFE's mask 0xFFE0003F keeps fields 31:26, 25:21 and 5:0. -/
theorem and_rfeMask (v : Word) : v &&& 0xFFE0003F = BitVec.ofNat 32 (bits v 26 6 * 2 ^ 26) |||
    BitVec.ofNat 32 (bits v 21 5 * 2 ^ 21) ||| BitVec.ofNat 32 (bits v 0 6) := by
  apply BitVec.eq_of_getLsbD_eq
  intro i hi
  rw [BitVec.getLsbD_and, BitVec.getLsbD_or, BitVec.getLsbD_or, BitVec.getLsbD_ofNat, BitVec.getLsbD_ofNat,
    BitVec.getLsbD_ofNat, Nat.testBit_mul_two_pow, Nat.testBit_mul_two_pow, testBit_bits, testBit_bits, testBit_bits]
  interval_cases i <;> simp

end Sys2Proof
end

