-- ==== Sys2Proof/Laws/Memory.lean ====
section
/-! SUPPORT. The laws of memory: reads and writes of bytes and of little-endian values, and that every memory
operation keeps the canonical form (20_memory.md R98). -/

namespace Sys2Proof.Machine

/-! ## One byte -/

@[simp] theorem Memory.read_nil (a : Nat) : Memory.read [] a = Config.unlistedByte := rfl

theorem Memory.read_cons (k : Nat) (b : Byte) (rest : Memory) (a : Nat) :
    Memory.read ((k, b) :: rest) a = if k = a then b else Memory.read rest a := rfl

/-- A write leaves every other byte alone, whatever form the list is in. -/
theorem Memory.read_write_other (m : Memory) (a : Nat) (v : Byte) {k : Nat} (h : k ≠ a) :
    (Memory.write m a v).read k = m.read k := by
  induction m with
  | nil =>
    unfold Memory.write
    split
    · rfl
    · rw [Memory.read_cons, if_neg (Ne.symm h)]
  | cons c rest ih =>
    obtain ⟨j, b⟩ := c
    unfold Memory.write
    split
    · split
      · rfl
      · rw [Memory.read_cons, if_neg (Ne.symm h)]
    · split
      · rename_i hj
        split
        · rw [Memory.read_cons, if_neg (fun e => h (e.symm.trans hj.symm))]
        · rw [Memory.read_cons, Memory.read_cons, if_neg (Ne.symm h), if_neg (fun e => h (e.symm.trans hj.symm))]
      · rw [Memory.read_cons, Memory.read_cons, ih]

theorem Memory.wfFrom_cons {lo k : Nat} {b : Byte} {rest : Memory} :
    Memory.wfFrom lo ((k, b) :: rest) = true ↔
      lo ≤ k ∧ b ≠ Config.unlistedByte ∧ Memory.wfFrom (k + 1) rest = true := by
  simp [Memory.wfFrom, and_assoc]

theorem Memory.wfFrom_mono {m : Memory} {lo lo' : Nat} (h : Memory.wfFrom lo m = true) (hlo : lo' ≤ lo) :
    Memory.wfFrom lo' m = true := by
  cases m with
  | nil => rfl
  | cons c rest =>
    obtain ⟨k, b⟩ := c
    rw [Memory.wfFrom_cons] at h ⊢
    exact ⟨hlo.trans h.1, h.2⟩

/-- Below its bound a canonical list holds nothing. -/
theorem Memory.read_below {m : Memory} {lo k : Nat} (h : Memory.wfFrom lo m = true) (hk : k < lo) :
    m.read k = Config.unlistedByte := by
  induction m generalizing lo with
  | nil => rfl
  | cons c rest ih =>
    obtain ⟨j, b⟩ := c
    rw [Memory.wfFrom_cons] at h
    rw [Memory.read_cons, if_neg (by omega)]
    exact ih h.2.2 (by omega)

theorem Memory.wfFrom_write {m : Memory} {lo a : Nat} {v : Byte} (h : Memory.wfFrom lo m = true) (ha : lo ≤ a) :
    Memory.wfFrom lo (Memory.write m a v) = true := by
  induction m generalizing lo with
  | nil =>
    unfold Memory.write
    split
    · rfl
    · rename_i hv
      exact Memory.wfFrom_cons.2 ⟨ha, hv, rfl⟩
  | cons c rest ih =>
    obtain ⟨k, b⟩ := c
    have h' := Memory.wfFrom_cons.1 h
    unfold Memory.write
    split
    · rename_i hlt
      split
      · exact h
      · rename_i hv
        exact Memory.wfFrom_cons.2 ⟨ha, hv, Memory.wfFrom_cons.2 ⟨by omega, h'.2⟩⟩
    · split
      · rename_i hlt heq
        split
        · exact Memory.wfFrom_mono h'.2.2 (by omega)
        · rename_i hv
          exact Memory.wfFrom_cons.2 ⟨ha, hv, by rw [heq]; exact h'.2.2⟩
      · exact Memory.wfFrom_cons.2 ⟨h'.1, h'.2.1, ih h'.2.2 (by omega)⟩

/-- A write keeps the canonical form. -/
theorem Memory.wf_write {m : Memory} {a : Nat} {v : Byte} (h : m.wf = true) : (Memory.write m a v).wf = true :=
  Memory.wfFrom_write h (Nat.zero_le a)

theorem Memory.read_write_same_from {m : Memory} {lo a : Nat} {v : Byte} (h : Memory.wfFrom lo m = true) :
    (Memory.write m a v).read a = v := by
  induction m generalizing lo with
  | nil =>
    unfold Memory.write
    split
    · rename_i hv
      exact hv.symm
    · rw [Memory.read_cons, if_pos rfl]
  | cons c rest ih =>
    obtain ⟨k, b⟩ := c
    have h' := Memory.wfFrom_cons.1 h
    unfold Memory.write
    split
    · rename_i hlt
      split
      · rename_i hv
        rw [hv]
        exact Memory.read_below (Memory.wfFrom_cons.2 ⟨le_refl k, h'.2⟩) hlt
      · rw [Memory.read_cons, if_pos rfl]
    · split
      · rename_i heq
        split
        · rename_i hv
          rw [hv]
          exact Memory.read_below h'.2.2 (by omega)
        · rw [Memory.read_cons, if_pos rfl]
      · rename_i hne
        rw [Memory.read_cons, if_neg (fun e => hne e.symm)]
        exact ih h'.2.2

/-- A canonical memory reads back what was written. -/
theorem Memory.read_write_same {m : Memory} {a : Nat} {v : Byte} (h : m.wf = true) :
    (Memory.write m a v).read a = v := Memory.read_write_same_from h

/-- The byte at `k` after a write, for a canonical memory. -/
theorem Memory.read_write {m : Memory} (h : m.wf = true) (a k : Nat) (v : Byte) :
    (Memory.write m a v).read k = if k = a then v else m.read k := by
  by_cases e : k = a
  · subst e; rw [if_pos rfl, Memory.read_write_same h]
  · rw [if_neg e, Memory.read_write_other m a v e]

/-! ## Little-endian values -/

/-- A wide write keeps the canonical form. -/
theorem Memory.wf_writeLE {m : Memory} {a : Nat} {v : Word} {w : Width} (h : m.wf = true) :
    (m.writeLE a v w).wf = true := by
  cases w with
  | byte => exact Memory.wf_write h
  | half => exact Memory.wf_write (Memory.wf_write h)
  | word => exact Memory.wf_write (Memory.wf_write (Memory.wf_write (Memory.wf_write h)))

/-- A load of bytes keeps the canonical form. -/
theorem Memory.wf_load {m : Memory} {a : Nat} {bs : List Byte} (h : m.wf = true) : (m.load a bs).wf = true := by
  induction bs generalizing m a with
  | nil => exact h
  | cons b rest ih => exact ih (Memory.wf_write h)

/-- A wide write leaves every byte outside its own alone (20_memory.md R98: "and changes nothing else"). -/
theorem Memory.read_writeLE_other (m : Memory) (a : Nat) (v : Word) (w : Width) {k : Nat}
    (h : k < a ∨ a + widthBytes w ≤ k) : (m.writeLE a v w).read k = m.read k := by
  cases w with
  | byte =>
    simp only [widthBytes] at h
    exact Memory.read_write_other _ _ _ (by omega)
  | half =>
    simp only [widthBytes] at h
    unfold Memory.writeLE
    rw [Memory.read_write_other _ _ _ (by omega), Memory.read_write_other _ _ _ (by omega)]
  | word =>
    simp only [widthBytes] at h
    unfold Memory.writeLE
    rw [Memory.read_write_other _ _ _ (by omega), Memory.read_write_other _ _ _ (by omega),
      Memory.read_write_other _ _ _ (by omega), Memory.read_write_other _ _ _ (by omega)]

/-- Each byte a wide write stores is the value's byte of that place (20_memory.md R98). -/
theorem Memory.read_writeLE_inside {m : Memory} (hm : m.wf = true) (a : Nat) (v : Word) (w : Width) {i : Nat}
    (hi : i < widthBytes w) : (m.writeLE a v w).read (a + i) = byteOf v i := by
  cases w with
  | byte =>
    simp only [widthBytes] at hi
    obtain rfl : i = 0 := by omega
    exact Memory.read_write_same hm
  | half =>
    simp only [widthBytes] at hi
    unfold Memory.writeLE
    rw [Memory.read_write (Memory.wf_write hm), Memory.read_write hm]
    obtain rfl | rfl : i = 0 ∨ i = 1 := by omega
    · simp
    · simp
  | word =>
    simp only [widthBytes] at hi
    unfold Memory.writeLE
    have h1 := Memory.wf_write (a := a) (v := byteOf v 0) hm
    have h2 := Memory.wf_write (a := a + 1) (v := byteOf v 1) h1
    have h3 := Memory.wf_write (a := a + 2) (v := byteOf v 2) h2
    rw [Memory.read_write h3, Memory.read_write h2, Memory.read_write h1, Memory.read_write hm]
    obtain rfl | rfl | rfl | rfl : i = 0 ∨ i = 1 ∨ i = 2 ∨ i = 3 := by omega
    all_goals simp

/-! ## Bytes of a word -/

theorem byteOf_toNat (v : Word) (i : Nat) : (byteOf v i).toNat = v.toNat / 2 ^ (8 * i) % 256 := by
  simp [byteOf]

theorem wordOfBytes_toNat (b0 b1 b2 b3 : Byte) :
    (wordOfBytes b0 b1 b2 b3).toNat = b0.toNat + 2 ^ 8 * b1.toNat + 2 ^ 16 * b2.toNat + 2 ^ 24 * b3.toNat := by
  have := b0.isLt; have := b1.isLt; have := b2.isLt; have := b3.isLt
  simp only [wordOfBytes, BitVec.toNat_ofNat]
  omega

/-- A word is made of its own four bytes. -/
@[simp] theorem wordOfBytes_byteOf (v : Word) : wordOfBytes (byteOf v 0) (byteOf v 1) (byteOf v 2) (byteOf v 3) = v := by
  apply BitVec.eq_of_toNat_eq
  rw [wordOfBytes_toNat]
  simp only [byteOf_toNat]
  have := v.isLt
  omega

theorem byteOf_wordOfBytes (b0 b1 b2 b3 : Byte) :
    byteOf (wordOfBytes b0 b1 b2 b3) 0 = b0 ∧ byteOf (wordOfBytes b0 b1 b2 b3) 1 = b1 ∧
      byteOf (wordOfBytes b0 b1 b2 b3) 2 = b2 ∧ byteOf (wordOfBytes b0 b1 b2 b3) 3 = b3 := by
  have := b0.isLt; have := b1.isLt; have := b2.isLt; have := b3.isLt
  refine ⟨?_, ?_, ?_, ?_⟩ <;>
  · apply BitVec.eq_of_toNat_eq
    rw [byteOf_toNat, wordOfBytes_toNat]
    omega

/-- A word stored in a canonical memory reads back (20_memory.md R98). -/
theorem Memory.readLE_writeLE_word {m : Memory} (hm : m.wf = true) (a : Nat) (v : Word) :
    (m.writeLE a v .word).readLE a .word = v := by
  have h (i : Nat) (hi : i < 4) := Memory.read_writeLE_inside hm a v .word (i := i) hi
  unfold Memory.readLE
  rw [h 1 (by omega), h 2 (by omega), h 3 (by omega)]
  have h0 := h 0 (by omega)
  rw [Nat.add_zero] at h0
  rw [h0, wordOfBytes_byteOf]

/-! ## Equal memories are equal data -/

theorem Memory.eq_of_read_from {m n : Memory} {lo : Nat} (hm : Memory.wfFrom lo m = true)
    (hn : Memory.wfFrom lo n = true) (h : ∀ k, m.read k = n.read k) : m = n := by
  induction m generalizing n lo with
  | nil =>
    cases n with
    | nil => rfl
    | cons c rest =>
      obtain ⟨j, b⟩ := c
      have hj := h j
      rw [Memory.read_nil, Memory.read_cons, if_pos rfl] at hj
      exact absurd hj.symm (Memory.wfFrom_cons.1 hn).2.1
  | cons c rest ih =>
    obtain ⟨j, b⟩ := c
    have hm' := Memory.wfFrom_cons.1 hm
    cases n with
    | nil =>
      have hj := h j
      rw [Memory.read_nil, Memory.read_cons, if_pos rfl] at hj
      exact absurd hj hm'.2.1
    | cons d tail =>
      obtain ⟨k, e⟩ := d
      have hn' := Memory.wfFrom_cons.1 hn
      have hjk : j = k := by
        rcases Nat.lt_trichotomy j k with hlt | heq | hgt
        · have hj := h j
          rw [Memory.read_cons, if_pos rfl, Memory.read_cons, if_neg (by omega)] at hj
          rw [Memory.read_below hn'.2.2 (by omega)] at hj
          exact absurd hj hm'.2.1
        · exact heq
        · have hk := h k
          rw [Memory.read_cons, if_neg (by omega), Memory.read_cons, if_pos rfl] at hk
          rw [Memory.read_below hm'.2.2 (by omega)] at hk
          exact absurd hk.symm hn'.2.1
      subst hjk
      have hb : b = e := by
        have := h j
        rwa [Memory.read_cons, if_pos rfl, Memory.read_cons, if_pos rfl] at this
      subst hb
      have hrest : rest = tail := by
        refine ih hm'.2.2 hn'.2.2 fun i => ?_
        by_cases hi : j = i
        · subst hi
          rw [Memory.read_below hm'.2.2 (by omega), Memory.read_below hn'.2.2 (by omega)]
        · have := h i
          rwa [Memory.read_cons, if_neg hi, Memory.read_cons, if_neg hi] at this
      rw [hrest]

/-- Two canonical memories that read alike at every address are the same list. -/
theorem Memory.eq_of_read {m n : Memory} (hm : m.wf = true) (hn : n.wf = true) (h : ∀ k, m.read k = n.read k) :
    m = n := Memory.eq_of_read_from hm hn h

end Sys2Proof.Machine
end

