-- ==== Sys2Proof/Laws/State.lean ====
section
/-! SUPPORT. One lemma per field per update of the state, so that no proof unfolds a record update. -/

namespace Sys2Proof.Machine

variable (s : State)

/-! ## setReg -/

@[simp] theorem State.setReg_inRegs (i : Reg) (v : Word) : (s.setReg i v).inRegs = s.inRegs := rfl
@[simp] theorem State.setReg_outRegs (i : Reg) (v : Word) : (s.setReg i v).outRegs = writeBank s.outRegs i v := rfl
@[simp] theorem State.setReg_hi (i : Reg) (v : Word) : (s.setReg i v).hi = s.hi := rfl
@[simp] theorem State.setReg_lo (i : Reg) (v : Word) : (s.setReg i v).lo = s.lo := rfl
@[simp] theorem State.setReg_cpc (i : Reg) (v : Word) : (s.setReg i v).cpc = s.cpc := rfl
@[simp] theorem State.setReg_pc (i : Reg) (v : Word) : (s.setReg i v).pc = s.pc := rfl
@[simp] theorem State.setReg_npc (i : Reg) (v : Word) : (s.setReg i v).npc = s.npc := rfl
@[simp] theorem State.setReg_loadDelayTarget (i : Reg) (v : Word) : (s.setReg i v).loadDelayTarget = s.loadDelayTarget := rfl
@[simp] theorem State.setReg_loadDelayValue (i : Reg) (v : Word) : (s.setReg i v).loadDelayValue = s.loadDelayValue := rfl
@[simp] theorem State.setReg_c0regs (i : Reg) (v : Word) : (s.setReg i v).c0regs = s.c0regs := rfl
@[simp] theorem State.setReg_runState (i : Reg) (v : Word) : (s.setReg i v).runState = s.runState := rfl
@[simp] theorem State.setReg_haltReason (i : Reg) (v : Word) : (s.setReg i v).haltReason = s.haltReason := rfl
@[simp] theorem State.setReg_breakpoints (i : Reg) (v : Word) : (s.setReg i v).breakpoints = s.breakpoints := rfl
@[simp] theorem State.setReg_instrExecCnt (i : Reg) (v : Word) : (s.setReg i v).instrExecCnt = s.instrExecCnt := rfl
@[simp] theorem State.setReg_platform (i : Reg) (v : Word) : (s.setReg i v).platform = s.platform := rfl
@[simp] theorem State.setReg_mem (i : Reg) (v : Word) : (s.setReg i v).mem = s.mem := rfl
@[simp] theorem State.setReg_devHistory (i : Reg) (v : Word) : (s.setReg i v).devHistory = s.devHistory := rfl
@[simp] theorem State.setReg_getReg (i : Reg) (v : Word) (j : Reg) : (s.setReg i v).getReg j = s.getReg j := rfl
@[simp] theorem State.setReg_getC0 (i : Reg) (v : Word) (k : Reg) : (s.setReg i v).getC0 k = s.getC0 k := rfl
@[simp] theorem State.setReg_isolate (i : Reg) (v : Word) : (s.setReg i v).isolate = s.isolate := rfl
@[simp] theorem State.setReg_bev (i : Reg) (v : Word) : (s.setReg i v).bev = s.bev := rfl
@[simp] theorem State.setReg_cu2 (i : Reg) (v : Word) : (s.setReg i v).cu2 = s.cu2 := rfl

/-! ## setRegDelayed -/

@[simp] theorem State.setRegDelayed_inRegs (i : Reg) (v : Word) : (s.setRegDelayed i v).inRegs = s.inRegs := rfl
@[simp] theorem State.setRegDelayed_outRegs (i : Reg) (v : Word) : (s.setRegDelayed i v).outRegs = s.outRegs := rfl
@[simp] theorem State.setRegDelayed_hi (i : Reg) (v : Word) : (s.setRegDelayed i v).hi = s.hi := rfl
@[simp] theorem State.setRegDelayed_lo (i : Reg) (v : Word) : (s.setRegDelayed i v).lo = s.lo := rfl
@[simp] theorem State.setRegDelayed_cpc (i : Reg) (v : Word) : (s.setRegDelayed i v).cpc = s.cpc := rfl
@[simp] theorem State.setRegDelayed_pc (i : Reg) (v : Word) : (s.setRegDelayed i v).pc = s.pc := rfl
@[simp] theorem State.setRegDelayed_npc (i : Reg) (v : Word) : (s.setRegDelayed i v).npc = s.npc := rfl
@[simp] theorem State.setRegDelayed_loadDelayTarget (i : Reg) (v : Word) : (s.setRegDelayed i v).loadDelayTarget = i := rfl
@[simp] theorem State.setRegDelayed_loadDelayValue (i : Reg) (v : Word) : (s.setRegDelayed i v).loadDelayValue = v := rfl
@[simp] theorem State.setRegDelayed_c0regs (i : Reg) (v : Word) : (s.setRegDelayed i v).c0regs = s.c0regs := rfl
@[simp] theorem State.setRegDelayed_runState (i : Reg) (v : Word) : (s.setRegDelayed i v).runState = s.runState := rfl
@[simp] theorem State.setRegDelayed_haltReason (i : Reg) (v : Word) : (s.setRegDelayed i v).haltReason = s.haltReason := rfl
@[simp] theorem State.setRegDelayed_breakpoints (i : Reg) (v : Word) : (s.setRegDelayed i v).breakpoints = s.breakpoints := rfl
@[simp] theorem State.setRegDelayed_instrExecCnt (i : Reg) (v : Word) : (s.setRegDelayed i v).instrExecCnt = s.instrExecCnt := rfl
@[simp] theorem State.setRegDelayed_platform (i : Reg) (v : Word) : (s.setRegDelayed i v).platform = s.platform := rfl
@[simp] theorem State.setRegDelayed_mem (i : Reg) (v : Word) : (s.setRegDelayed i v).mem = s.mem := rfl
@[simp] theorem State.setRegDelayed_devHistory (i : Reg) (v : Word) : (s.setRegDelayed i v).devHistory = s.devHistory := rfl
@[simp] theorem State.setRegDelayed_getReg (i : Reg) (v : Word) (j : Reg) : (s.setRegDelayed i v).getReg j = s.getReg j := rfl
@[simp] theorem State.setRegDelayed_getOut (i : Reg) (v : Word) (j : Reg) : (s.setRegDelayed i v).getOut j = s.getOut j := rfl
@[simp] theorem State.setRegDelayed_getC0 (i : Reg) (v : Word) (k : Reg) : (s.setRegDelayed i v).getC0 k = s.getC0 k := rfl
@[simp] theorem State.setRegDelayed_isolate (i : Reg) (v : Word) : (s.setRegDelayed i v).isolate = s.isolate := rfl
@[simp] theorem State.setRegDelayed_bev (i : Reg) (v : Word) : (s.setRegDelayed i v).bev = s.bev := rfl
@[simp] theorem State.setRegDelayed_cu2 (i : Reg) (v : Word) : (s.setRegDelayed i v).cu2 = s.cu2 := rfl

/-! ## setHi -/

@[simp] theorem State.setHi_inRegs (v : Word) : (s.setHi v).inRegs = s.inRegs := rfl
@[simp] theorem State.setHi_outRegs (v : Word) : (s.setHi v).outRegs = s.outRegs := rfl
@[simp] theorem State.setHi_hi (v : Word) : (s.setHi v).hi = v := rfl
@[simp] theorem State.setHi_lo (v : Word) : (s.setHi v).lo = s.lo := rfl
@[simp] theorem State.setHi_cpc (v : Word) : (s.setHi v).cpc = s.cpc := rfl
@[simp] theorem State.setHi_pc (v : Word) : (s.setHi v).pc = s.pc := rfl
@[simp] theorem State.setHi_npc (v : Word) : (s.setHi v).npc = s.npc := rfl
@[simp] theorem State.setHi_loadDelayTarget (v : Word) : (s.setHi v).loadDelayTarget = s.loadDelayTarget := rfl
@[simp] theorem State.setHi_loadDelayValue (v : Word) : (s.setHi v).loadDelayValue = s.loadDelayValue := rfl
@[simp] theorem State.setHi_c0regs (v : Word) : (s.setHi v).c0regs = s.c0regs := rfl
@[simp] theorem State.setHi_runState (v : Word) : (s.setHi v).runState = s.runState := rfl
@[simp] theorem State.setHi_haltReason (v : Word) : (s.setHi v).haltReason = s.haltReason := rfl
@[simp] theorem State.setHi_breakpoints (v : Word) : (s.setHi v).breakpoints = s.breakpoints := rfl
@[simp] theorem State.setHi_instrExecCnt (v : Word) : (s.setHi v).instrExecCnt = s.instrExecCnt := rfl
@[simp] theorem State.setHi_platform (v : Word) : (s.setHi v).platform = s.platform := rfl
@[simp] theorem State.setHi_mem (v : Word) : (s.setHi v).mem = s.mem := rfl
@[simp] theorem State.setHi_devHistory (v : Word) : (s.setHi v).devHistory = s.devHistory := rfl
@[simp] theorem State.setHi_getReg (v : Word) (j : Reg) : (s.setHi v).getReg j = s.getReg j := rfl
@[simp] theorem State.setHi_getOut (v : Word) (j : Reg) : (s.setHi v).getOut j = s.getOut j := rfl
@[simp] theorem State.setHi_getC0 (v : Word) (k : Reg) : (s.setHi v).getC0 k = s.getC0 k := rfl
@[simp] theorem State.setHi_isolate (v : Word) : (s.setHi v).isolate = s.isolate := rfl
@[simp] theorem State.setHi_bev (v : Word) : (s.setHi v).bev = s.bev := rfl
@[simp] theorem State.setHi_cu2 (v : Word) : (s.setHi v).cu2 = s.cu2 := rfl

/-! ## setLo -/

@[simp] theorem State.setLo_inRegs (v : Word) : (s.setLo v).inRegs = s.inRegs := rfl
@[simp] theorem State.setLo_outRegs (v : Word) : (s.setLo v).outRegs = s.outRegs := rfl
@[simp] theorem State.setLo_hi (v : Word) : (s.setLo v).hi = s.hi := rfl
@[simp] theorem State.setLo_lo (v : Word) : (s.setLo v).lo = v := rfl
@[simp] theorem State.setLo_cpc (v : Word) : (s.setLo v).cpc = s.cpc := rfl
@[simp] theorem State.setLo_pc (v : Word) : (s.setLo v).pc = s.pc := rfl
@[simp] theorem State.setLo_npc (v : Word) : (s.setLo v).npc = s.npc := rfl
@[simp] theorem State.setLo_loadDelayTarget (v : Word) : (s.setLo v).loadDelayTarget = s.loadDelayTarget := rfl
@[simp] theorem State.setLo_loadDelayValue (v : Word) : (s.setLo v).loadDelayValue = s.loadDelayValue := rfl
@[simp] theorem State.setLo_c0regs (v : Word) : (s.setLo v).c0regs = s.c0regs := rfl
@[simp] theorem State.setLo_runState (v : Word) : (s.setLo v).runState = s.runState := rfl
@[simp] theorem State.setLo_haltReason (v : Word) : (s.setLo v).haltReason = s.haltReason := rfl
@[simp] theorem State.setLo_breakpoints (v : Word) : (s.setLo v).breakpoints = s.breakpoints := rfl
@[simp] theorem State.setLo_instrExecCnt (v : Word) : (s.setLo v).instrExecCnt = s.instrExecCnt := rfl
@[simp] theorem State.setLo_platform (v : Word) : (s.setLo v).platform = s.platform := rfl
@[simp] theorem State.setLo_mem (v : Word) : (s.setLo v).mem = s.mem := rfl
@[simp] theorem State.setLo_devHistory (v : Word) : (s.setLo v).devHistory = s.devHistory := rfl
@[simp] theorem State.setLo_getReg (v : Word) (j : Reg) : (s.setLo v).getReg j = s.getReg j := rfl
@[simp] theorem State.setLo_getOut (v : Word) (j : Reg) : (s.setLo v).getOut j = s.getOut j := rfl
@[simp] theorem State.setLo_getC0 (v : Word) (k : Reg) : (s.setLo v).getC0 k = s.getC0 k := rfl
@[simp] theorem State.setLo_isolate (v : Word) : (s.setLo v).isolate = s.isolate := rfl
@[simp] theorem State.setLo_bev (v : Word) : (s.setLo v).bev = s.bev := rfl
@[simp] theorem State.setLo_cu2 (v : Word) : (s.setLo v).cu2 = s.cu2 := rfl

/-! ## setNpc -/

@[simp] theorem State.setNpc_inRegs (v : Word) : (s.setNpc v).inRegs = s.inRegs := rfl
@[simp] theorem State.setNpc_outRegs (v : Word) : (s.setNpc v).outRegs = s.outRegs := rfl
@[simp] theorem State.setNpc_hi (v : Word) : (s.setNpc v).hi = s.hi := rfl
@[simp] theorem State.setNpc_lo (v : Word) : (s.setNpc v).lo = s.lo := rfl
@[simp] theorem State.setNpc_cpc (v : Word) : (s.setNpc v).cpc = s.cpc := rfl
@[simp] theorem State.setNpc_pc (v : Word) : (s.setNpc v).pc = s.pc := rfl
@[simp] theorem State.setNpc_npc (v : Word) : (s.setNpc v).npc = v := rfl
@[simp] theorem State.setNpc_loadDelayTarget (v : Word) : (s.setNpc v).loadDelayTarget = s.loadDelayTarget := rfl
@[simp] theorem State.setNpc_loadDelayValue (v : Word) : (s.setNpc v).loadDelayValue = s.loadDelayValue := rfl
@[simp] theorem State.setNpc_c0regs (v : Word) : (s.setNpc v).c0regs = s.c0regs := rfl
@[simp] theorem State.setNpc_runState (v : Word) : (s.setNpc v).runState = s.runState := rfl
@[simp] theorem State.setNpc_haltReason (v : Word) : (s.setNpc v).haltReason = s.haltReason := rfl
@[simp] theorem State.setNpc_breakpoints (v : Word) : (s.setNpc v).breakpoints = s.breakpoints := rfl
@[simp] theorem State.setNpc_instrExecCnt (v : Word) : (s.setNpc v).instrExecCnt = s.instrExecCnt := rfl
@[simp] theorem State.setNpc_platform (v : Word) : (s.setNpc v).platform = s.platform := rfl
@[simp] theorem State.setNpc_mem (v : Word) : (s.setNpc v).mem = s.mem := rfl
@[simp] theorem State.setNpc_devHistory (v : Word) : (s.setNpc v).devHistory = s.devHistory := rfl
@[simp] theorem State.setNpc_getReg (v : Word) (j : Reg) : (s.setNpc v).getReg j = s.getReg j := rfl
@[simp] theorem State.setNpc_getOut (v : Word) (j : Reg) : (s.setNpc v).getOut j = s.getOut j := rfl
@[simp] theorem State.setNpc_getC0 (v : Word) (k : Reg) : (s.setNpc v).getC0 k = s.getC0 k := rfl
@[simp] theorem State.setNpc_isolate (v : Word) : (s.setNpc v).isolate = s.isolate := rfl
@[simp] theorem State.setNpc_bev (v : Word) : (s.setNpc v).bev = s.bev := rfl
@[simp] theorem State.setNpc_cu2 (v : Word) : (s.setNpc v).cu2 = s.cu2 := rfl

/-! ## setC0 -/

@[simp] theorem State.setC0_inRegs (n : Reg) (v : Word) : (s.setC0 n v).inRegs = s.inRegs := rfl
@[simp] theorem State.setC0_outRegs (n : Reg) (v : Word) : (s.setC0 n v).outRegs = s.outRegs := rfl
@[simp] theorem State.setC0_hi (n : Reg) (v : Word) : (s.setC0 n v).hi = s.hi := rfl
@[simp] theorem State.setC0_lo (n : Reg) (v : Word) : (s.setC0 n v).lo = s.lo := rfl
@[simp] theorem State.setC0_cpc (n : Reg) (v : Word) : (s.setC0 n v).cpc = s.cpc := rfl
@[simp] theorem State.setC0_pc (n : Reg) (v : Word) : (s.setC0 n v).pc = s.pc := rfl
@[simp] theorem State.setC0_npc (n : Reg) (v : Word) : (s.setC0 n v).npc = s.npc := rfl
@[simp] theorem State.setC0_loadDelayTarget (n : Reg) (v : Word) : (s.setC0 n v).loadDelayTarget = s.loadDelayTarget := rfl
@[simp] theorem State.setC0_loadDelayValue (n : Reg) (v : Word) : (s.setC0 n v).loadDelayValue = s.loadDelayValue := rfl
@[simp] theorem State.setC0_c0regs (n : Reg) (v : Word) : (s.setC0 n v).c0regs = s.c0regs.set n.val v := rfl
@[simp] theorem State.setC0_runState (n : Reg) (v : Word) : (s.setC0 n v).runState = s.runState := rfl
@[simp] theorem State.setC0_haltReason (n : Reg) (v : Word) : (s.setC0 n v).haltReason = s.haltReason := rfl
@[simp] theorem State.setC0_breakpoints (n : Reg) (v : Word) : (s.setC0 n v).breakpoints = s.breakpoints := rfl
@[simp] theorem State.setC0_instrExecCnt (n : Reg) (v : Word) : (s.setC0 n v).instrExecCnt = s.instrExecCnt := rfl
@[simp] theorem State.setC0_platform (n : Reg) (v : Word) : (s.setC0 n v).platform = s.platform := rfl
@[simp] theorem State.setC0_mem (n : Reg) (v : Word) : (s.setC0 n v).mem = s.mem := rfl
@[simp] theorem State.setC0_devHistory (n : Reg) (v : Word) : (s.setC0 n v).devHistory = s.devHistory := rfl
@[simp] theorem State.setC0_getReg (n : Reg) (v : Word) (j : Reg) : (s.setC0 n v).getReg j = s.getReg j := rfl
@[simp] theorem State.setC0_getOut (n : Reg) (v : Word) (j : Reg) : (s.setC0 n v).getOut j = s.getOut j := rfl

/-! ## setMem -/

@[simp] theorem State.setMem_inRegs (m : Memory) : (s.setMem m).inRegs = s.inRegs := rfl
@[simp] theorem State.setMem_outRegs (m : Memory) : (s.setMem m).outRegs = s.outRegs := rfl
@[simp] theorem State.setMem_hi (m : Memory) : (s.setMem m).hi = s.hi := rfl
@[simp] theorem State.setMem_lo (m : Memory) : (s.setMem m).lo = s.lo := rfl
@[simp] theorem State.setMem_cpc (m : Memory) : (s.setMem m).cpc = s.cpc := rfl
@[simp] theorem State.setMem_pc (m : Memory) : (s.setMem m).pc = s.pc := rfl
@[simp] theorem State.setMem_npc (m : Memory) : (s.setMem m).npc = s.npc := rfl
@[simp] theorem State.setMem_loadDelayTarget (m : Memory) : (s.setMem m).loadDelayTarget = s.loadDelayTarget := rfl
@[simp] theorem State.setMem_loadDelayValue (m : Memory) : (s.setMem m).loadDelayValue = s.loadDelayValue := rfl
@[simp] theorem State.setMem_c0regs (m : Memory) : (s.setMem m).c0regs = s.c0regs := rfl
@[simp] theorem State.setMem_runState (m : Memory) : (s.setMem m).runState = s.runState := rfl
@[simp] theorem State.setMem_haltReason (m : Memory) : (s.setMem m).haltReason = s.haltReason := rfl
@[simp] theorem State.setMem_breakpoints (m : Memory) : (s.setMem m).breakpoints = s.breakpoints := rfl
@[simp] theorem State.setMem_instrExecCnt (m : Memory) : (s.setMem m).instrExecCnt = s.instrExecCnt := rfl
@[simp] theorem State.setMem_platform (m : Memory) : (s.setMem m).platform = s.platform := rfl
@[simp] theorem State.setMem_mem (m : Memory) : (s.setMem m).mem = m := rfl
@[simp] theorem State.setMem_devHistory (m : Memory) : (s.setMem m).devHistory = s.devHistory := rfl
@[simp] theorem State.setMem_getReg (m : Memory) (j : Reg) : (s.setMem m).getReg j = s.getReg j := rfl
@[simp] theorem State.setMem_getOut (m : Memory) (j : Reg) : (s.setMem m).getOut j = s.getOut j := rfl
@[simp] theorem State.setMem_getC0 (m : Memory) (k : Reg) : (s.setMem m).getC0 k = s.getC0 k := rfl
@[simp] theorem State.setMem_isolate (m : Memory) : (s.setMem m).isolate = s.isolate := rfl
@[simp] theorem State.setMem_bev (m : Memory) : (s.setMem m).bev = s.bev := rfl
@[simp] theorem State.setMem_cu2 (m : Memory) : (s.setMem m).cu2 = s.cu2 := rfl

/-! ## recordEvent -/

@[simp] theorem State.recordEvent_inRegs (e : DeviceEvent) : (s.recordEvent e).inRegs = s.inRegs := rfl
@[simp] theorem State.recordEvent_outRegs (e : DeviceEvent) : (s.recordEvent e).outRegs = s.outRegs := rfl
@[simp] theorem State.recordEvent_hi (e : DeviceEvent) : (s.recordEvent e).hi = s.hi := rfl
@[simp] theorem State.recordEvent_lo (e : DeviceEvent) : (s.recordEvent e).lo = s.lo := rfl
@[simp] theorem State.recordEvent_cpc (e : DeviceEvent) : (s.recordEvent e).cpc = s.cpc := rfl
@[simp] theorem State.recordEvent_pc (e : DeviceEvent) : (s.recordEvent e).pc = s.pc := rfl
@[simp] theorem State.recordEvent_npc (e : DeviceEvent) : (s.recordEvent e).npc = s.npc := rfl
@[simp] theorem State.recordEvent_loadDelayTarget (e : DeviceEvent) : (s.recordEvent e).loadDelayTarget = s.loadDelayTarget := rfl
@[simp] theorem State.recordEvent_loadDelayValue (e : DeviceEvent) : (s.recordEvent e).loadDelayValue = s.loadDelayValue := rfl
@[simp] theorem State.recordEvent_c0regs (e : DeviceEvent) : (s.recordEvent e).c0regs = s.c0regs := rfl
@[simp] theorem State.recordEvent_runState (e : DeviceEvent) : (s.recordEvent e).runState = s.runState := rfl
@[simp] theorem State.recordEvent_haltReason (e : DeviceEvent) : (s.recordEvent e).haltReason = s.haltReason := rfl
@[simp] theorem State.recordEvent_breakpoints (e : DeviceEvent) : (s.recordEvent e).breakpoints = s.breakpoints := rfl
@[simp] theorem State.recordEvent_instrExecCnt (e : DeviceEvent) : (s.recordEvent e).instrExecCnt = s.instrExecCnt := rfl
@[simp] theorem State.recordEvent_platform (e : DeviceEvent) : (s.recordEvent e).platform = s.platform := rfl
@[simp] theorem State.recordEvent_mem (e : DeviceEvent) : (s.recordEvent e).mem = s.mem := rfl
@[simp] theorem State.recordEvent_devHistory (e : DeviceEvent) : (s.recordEvent e).devHistory = s.devHistory ++ [e] := rfl
@[simp] theorem State.recordEvent_getReg (e : DeviceEvent) (j : Reg) : (s.recordEvent e).getReg j = s.getReg j := rfl
@[simp] theorem State.recordEvent_getOut (e : DeviceEvent) (j : Reg) : (s.recordEvent e).getOut j = s.getOut j := rfl
@[simp] theorem State.recordEvent_getC0 (e : DeviceEvent) (k : Reg) : (s.recordEvent e).getC0 k = s.getC0 k := rfl
@[simp] theorem State.recordEvent_isolate (e : DeviceEvent) : (s.recordEvent e).isolate = s.isolate := rfl
@[simp] theorem State.recordEvent_bev (e : DeviceEvent) : (s.recordEvent e).bev = s.bev := rfl
@[simp] theorem State.recordEvent_cu2 (e : DeviceEvent) : (s.recordEvent e).cu2 = s.cu2 := rfl

/-! ## popMode -/

@[simp] theorem State.popMode_inRegs : s.popMode.inRegs = s.inRegs := rfl
@[simp] theorem State.popMode_outRegs : s.popMode.outRegs = s.outRegs := rfl
@[simp] theorem State.popMode_hi : s.popMode.hi = s.hi := rfl
@[simp] theorem State.popMode_lo : s.popMode.lo = s.lo := rfl
@[simp] theorem State.popMode_cpc : s.popMode.cpc = s.cpc := rfl
@[simp] theorem State.popMode_pc : s.popMode.pc = s.pc := rfl
@[simp] theorem State.popMode_npc : s.popMode.npc = s.npc := rfl
@[simp] theorem State.popMode_loadDelayTarget : s.popMode.loadDelayTarget = s.loadDelayTarget := rfl
@[simp] theorem State.popMode_loadDelayValue : s.popMode.loadDelayValue = s.loadDelayValue := rfl
@[simp] theorem State.popMode_runState : s.popMode.runState = s.runState := rfl
@[simp] theorem State.popMode_haltReason : s.popMode.haltReason = s.haltReason := rfl
@[simp] theorem State.popMode_breakpoints : s.popMode.breakpoints = s.breakpoints := rfl
@[simp] theorem State.popMode_instrExecCnt : s.popMode.instrExecCnt = s.instrExecCnt := rfl
@[simp] theorem State.popMode_platform : s.popMode.platform = s.platform := rfl
@[simp] theorem State.popMode_mem : s.popMode.mem = s.mem := rfl
@[simp] theorem State.popMode_devHistory : s.popMode.devHistory = s.devHistory := rfl
@[simp] theorem State.popMode_getReg (j : Reg) : s.popMode.getReg j = s.getReg j := rfl
@[simp] theorem State.popMode_getOut (j : Reg) : s.popMode.getOut j = s.getOut j := rfl

/-! ## latchCpc -/

@[simp] theorem State.latchCpc_inRegs : s.latchCpc.inRegs = s.inRegs := rfl
@[simp] theorem State.latchCpc_outRegs : s.latchCpc.outRegs = s.outRegs := rfl
@[simp] theorem State.latchCpc_hi : s.latchCpc.hi = s.hi := rfl
@[simp] theorem State.latchCpc_lo : s.latchCpc.lo = s.lo := rfl
@[simp] theorem State.latchCpc_cpc : s.latchCpc.cpc = s.pc := rfl
@[simp] theorem State.latchCpc_pc : s.latchCpc.pc = s.pc := rfl
@[simp] theorem State.latchCpc_npc : s.latchCpc.npc = s.npc := rfl
@[simp] theorem State.latchCpc_loadDelayTarget : s.latchCpc.loadDelayTarget = s.loadDelayTarget := rfl
@[simp] theorem State.latchCpc_loadDelayValue : s.latchCpc.loadDelayValue = s.loadDelayValue := rfl
@[simp] theorem State.latchCpc_c0regs : s.latchCpc.c0regs = s.c0regs := rfl
@[simp] theorem State.latchCpc_runState : s.latchCpc.runState = s.runState := rfl
@[simp] theorem State.latchCpc_haltReason : s.latchCpc.haltReason = s.haltReason := rfl
@[simp] theorem State.latchCpc_breakpoints : s.latchCpc.breakpoints = s.breakpoints := rfl
@[simp] theorem State.latchCpc_instrExecCnt : s.latchCpc.instrExecCnt = s.instrExecCnt := rfl
@[simp] theorem State.latchCpc_platform : s.latchCpc.platform = s.platform := rfl
@[simp] theorem State.latchCpc_mem : s.latchCpc.mem = s.mem := rfl
@[simp] theorem State.latchCpc_devHistory : s.latchCpc.devHistory = s.devHistory := rfl
@[simp] theorem State.latchCpc_getReg (j : Reg) : s.latchCpc.getReg j = s.getReg j := rfl
@[simp] theorem State.latchCpc_getOut (j : Reg) : s.latchCpc.getOut j = s.getOut j := rfl
@[simp] theorem State.latchCpc_getC0 (k : Reg) : s.latchCpc.getC0 k = s.getC0 k := rfl
@[simp] theorem State.latchCpc_isolate : s.latchCpc.isolate = s.isolate := rfl
@[simp] theorem State.latchCpc_bev : s.latchCpc.bev = s.bev := rfl
@[simp] theorem State.latchCpc_cu2 : s.latchCpc.cu2 = s.cu2 := rfl

/-! ## advance -/

@[simp] theorem State.advance_inRegs : s.advance.inRegs = s.inRegs := rfl
@[simp] theorem State.advance_outRegs : s.advance.outRegs = s.outRegs := rfl
@[simp] theorem State.advance_hi : s.advance.hi = s.hi := rfl
@[simp] theorem State.advance_lo : s.advance.lo = s.lo := rfl
@[simp] theorem State.advance_cpc : s.advance.cpc = s.cpc := rfl
@[simp] theorem State.advance_pc : s.advance.pc = s.npc := rfl
@[simp] theorem State.advance_npc : s.advance.npc = s.npc + 4 := rfl
@[simp] theorem State.advance_loadDelayTarget : s.advance.loadDelayTarget = s.loadDelayTarget := rfl
@[simp] theorem State.advance_loadDelayValue : s.advance.loadDelayValue = s.loadDelayValue := rfl
@[simp] theorem State.advance_c0regs : s.advance.c0regs = s.c0regs := rfl
@[simp] theorem State.advance_runState : s.advance.runState = s.runState := rfl
@[simp] theorem State.advance_haltReason : s.advance.haltReason = s.haltReason := rfl
@[simp] theorem State.advance_breakpoints : s.advance.breakpoints = s.breakpoints := rfl
@[simp] theorem State.advance_instrExecCnt : s.advance.instrExecCnt = s.instrExecCnt := rfl
@[simp] theorem State.advance_platform : s.advance.platform = s.platform := rfl
@[simp] theorem State.advance_mem : s.advance.mem = s.mem := rfl
@[simp] theorem State.advance_devHistory : s.advance.devHistory = s.devHistory := rfl
@[simp] theorem State.advance_getReg (j : Reg) : s.advance.getReg j = s.getReg j := rfl
@[simp] theorem State.advance_getOut (j : Reg) : s.advance.getOut j = s.getOut j := rfl
@[simp] theorem State.advance_getC0 (k : Reg) : s.advance.getC0 k = s.getC0 k := rfl
@[simp] theorem State.advance_isolate : s.advance.isolate = s.isolate := rfl
@[simp] theorem State.advance_bev : s.advance.bev = s.bev := rfl
@[simp] theorem State.advance_cu2 : s.advance.cu2 = s.cu2 := rfl

/-! ## commitLoad -/

@[simp] theorem State.commitLoad_inRegs : s.commitLoad.inRegs = s.inRegs := rfl
@[simp] theorem State.commitLoad_outRegs : s.commitLoad.outRegs = writeBank s.outRegs s.loadDelayTarget s.loadDelayValue := rfl
@[simp] theorem State.commitLoad_hi : s.commitLoad.hi = s.hi := rfl
@[simp] theorem State.commitLoad_lo : s.commitLoad.lo = s.lo := rfl
@[simp] theorem State.commitLoad_cpc : s.commitLoad.cpc = s.cpc := rfl
@[simp] theorem State.commitLoad_pc : s.commitLoad.pc = s.pc := rfl
@[simp] theorem State.commitLoad_npc : s.commitLoad.npc = s.npc := rfl
@[simp] theorem State.commitLoad_loadDelayTarget : s.commitLoad.loadDelayTarget = 0 := rfl
@[simp] theorem State.commitLoad_loadDelayValue : s.commitLoad.loadDelayValue = 0 := rfl
@[simp] theorem State.commitLoad_c0regs : s.commitLoad.c0regs = s.c0regs := rfl
@[simp] theorem State.commitLoad_runState : s.commitLoad.runState = s.runState := rfl
@[simp] theorem State.commitLoad_haltReason : s.commitLoad.haltReason = s.haltReason := rfl
@[simp] theorem State.commitLoad_breakpoints : s.commitLoad.breakpoints = s.breakpoints := rfl
@[simp] theorem State.commitLoad_instrExecCnt : s.commitLoad.instrExecCnt = s.instrExecCnt := rfl
@[simp] theorem State.commitLoad_platform : s.commitLoad.platform = s.platform := rfl
@[simp] theorem State.commitLoad_mem : s.commitLoad.mem = s.mem := rfl
@[simp] theorem State.commitLoad_devHistory : s.commitLoad.devHistory = s.devHistory := rfl
@[simp] theorem State.commitLoad_getReg (j : Reg) : s.commitLoad.getReg j = s.getReg j := rfl
@[simp] theorem State.commitLoad_getC0 (k : Reg) : s.commitLoad.getC0 k = s.getC0 k := rfl
@[simp] theorem State.commitLoad_isolate : s.commitLoad.isolate = s.isolate := rfl
@[simp] theorem State.commitLoad_bev : s.commitLoad.bev = s.bev := rfl
@[simp] theorem State.commitLoad_cu2 : s.commitLoad.cu2 = s.cu2 := rfl

/-! ## commitBanks -/

@[simp] theorem State.commitBanks_inRegs : s.commitBanks.inRegs = s.outRegs := rfl
@[simp] theorem State.commitBanks_outRegs : s.commitBanks.outRegs = s.outRegs := rfl
@[simp] theorem State.commitBanks_hi : s.commitBanks.hi = s.hi := rfl
@[simp] theorem State.commitBanks_lo : s.commitBanks.lo = s.lo := rfl
@[simp] theorem State.commitBanks_cpc : s.commitBanks.cpc = s.cpc := rfl
@[simp] theorem State.commitBanks_pc : s.commitBanks.pc = s.pc := rfl
@[simp] theorem State.commitBanks_npc : s.commitBanks.npc = s.npc := rfl
@[simp] theorem State.commitBanks_loadDelayTarget : s.commitBanks.loadDelayTarget = s.loadDelayTarget := rfl
@[simp] theorem State.commitBanks_loadDelayValue : s.commitBanks.loadDelayValue = s.loadDelayValue := rfl
@[simp] theorem State.commitBanks_c0regs : s.commitBanks.c0regs = s.c0regs := rfl
@[simp] theorem State.commitBanks_runState : s.commitBanks.runState = s.runState := rfl
@[simp] theorem State.commitBanks_haltReason : s.commitBanks.haltReason = s.haltReason := rfl
@[simp] theorem State.commitBanks_breakpoints : s.commitBanks.breakpoints = s.breakpoints := rfl
@[simp] theorem State.commitBanks_instrExecCnt : s.commitBanks.instrExecCnt = s.instrExecCnt := rfl
@[simp] theorem State.commitBanks_platform : s.commitBanks.platform = s.platform := rfl
@[simp] theorem State.commitBanks_mem : s.commitBanks.mem = s.mem := rfl
@[simp] theorem State.commitBanks_devHistory : s.commitBanks.devHistory = s.devHistory := rfl
@[simp] theorem State.commitBanks_getReg (j : Reg) : s.commitBanks.getReg j = s.getOut j := rfl
@[simp] theorem State.commitBanks_getOut (j : Reg) : s.commitBanks.getOut j = s.getOut j := rfl
@[simp] theorem State.commitBanks_getC0 (k : Reg) : s.commitBanks.getC0 k = s.getC0 k := rfl
@[simp] theorem State.commitBanks_isolate : s.commitBanks.isolate = s.isolate := rfl
@[simp] theorem State.commitBanks_bev : s.commitBanks.bev = s.bev := rfl
@[simp] theorem State.commitBanks_cu2 : s.commitBanks.cu2 = s.cu2 := rfl

/-! ## retire -/

@[simp] theorem State.retire_inRegs : s.retire.inRegs = s.inRegs := rfl
@[simp] theorem State.retire_outRegs : s.retire.outRegs = s.outRegs := rfl
@[simp] theorem State.retire_hi : s.retire.hi = s.hi := rfl
@[simp] theorem State.retire_lo : s.retire.lo = s.lo := rfl
@[simp] theorem State.retire_cpc : s.retire.cpc = s.cpc := rfl
@[simp] theorem State.retire_pc : s.retire.pc = s.pc := rfl
@[simp] theorem State.retire_npc : s.retire.npc = s.npc := rfl
@[simp] theorem State.retire_loadDelayTarget : s.retire.loadDelayTarget = s.loadDelayTarget := rfl
@[simp] theorem State.retire_loadDelayValue : s.retire.loadDelayValue = s.loadDelayValue := rfl
@[simp] theorem State.retire_c0regs : s.retire.c0regs = s.c0regs := rfl
@[simp] theorem State.retire_runState : s.retire.runState = if s.breakpoints.contains s.pc then .sleeping else s.runState := rfl
@[simp] theorem State.retire_haltReason : s.retire.haltReason = s.haltReason := rfl
@[simp] theorem State.retire_breakpoints : s.retire.breakpoints = s.breakpoints := rfl
@[simp] theorem State.retire_instrExecCnt : s.retire.instrExecCnt = s.instrExecCnt + 1 := rfl
@[simp] theorem State.retire_platform : s.retire.platform = s.platform := rfl
@[simp] theorem State.retire_mem : s.retire.mem = s.mem := rfl
@[simp] theorem State.retire_devHistory : s.retire.devHistory = s.devHistory := rfl
@[simp] theorem State.retire_getReg (j : Reg) : s.retire.getReg j = s.getReg j := rfl
@[simp] theorem State.retire_getOut (j : Reg) : s.retire.getOut j = s.getOut j := rfl
@[simp] theorem State.retire_getC0 (k : Reg) : s.retire.getC0 k = s.getC0 k := rfl
@[simp] theorem State.retire_isolate : s.retire.isolate = s.isolate := rfl
@[simp] theorem State.retire_bev : s.retire.bev = s.bev := rfl
@[simp] theorem State.retire_cu2 : s.retire.cu2 = s.cu2 := rfl

/-! ## setRunState -/

@[simp] theorem State.setRunState_inRegs (r : RunState) : (s.setRunState r).inRegs = s.inRegs := rfl
@[simp] theorem State.setRunState_outRegs (r : RunState) : (s.setRunState r).outRegs = s.outRegs := rfl
@[simp] theorem State.setRunState_hi (r : RunState) : (s.setRunState r).hi = s.hi := rfl
@[simp] theorem State.setRunState_lo (r : RunState) : (s.setRunState r).lo = s.lo := rfl
@[simp] theorem State.setRunState_cpc (r : RunState) : (s.setRunState r).cpc = s.cpc := rfl
@[simp] theorem State.setRunState_pc (r : RunState) : (s.setRunState r).pc = s.pc := rfl
@[simp] theorem State.setRunState_npc (r : RunState) : (s.setRunState r).npc = s.npc := rfl
@[simp] theorem State.setRunState_loadDelayTarget (r : RunState) : (s.setRunState r).loadDelayTarget = s.loadDelayTarget := rfl
@[simp] theorem State.setRunState_loadDelayValue (r : RunState) : (s.setRunState r).loadDelayValue = s.loadDelayValue := rfl
@[simp] theorem State.setRunState_c0regs (r : RunState) : (s.setRunState r).c0regs = s.c0regs := rfl
@[simp] theorem State.setRunState_runState (r : RunState) : (s.setRunState r).runState = r := rfl
@[simp] theorem State.setRunState_haltReason (r : RunState) : (s.setRunState r).haltReason = s.haltReason := rfl
@[simp] theorem State.setRunState_breakpoints (r : RunState) : (s.setRunState r).breakpoints = s.breakpoints := rfl
@[simp] theorem State.setRunState_instrExecCnt (r : RunState) : (s.setRunState r).instrExecCnt = s.instrExecCnt := rfl
@[simp] theorem State.setRunState_platform (r : RunState) : (s.setRunState r).platform = s.platform := rfl
@[simp] theorem State.setRunState_mem (r : RunState) : (s.setRunState r).mem = s.mem := rfl
@[simp] theorem State.setRunState_devHistory (r : RunState) : (s.setRunState r).devHistory = s.devHistory := rfl
@[simp] theorem State.setRunState_getReg (r : RunState) (j : Reg) : (s.setRunState r).getReg j = s.getReg j := rfl
@[simp] theorem State.setRunState_getOut (r : RunState) (j : Reg) : (s.setRunState r).getOut j = s.getOut j := rfl
@[simp] theorem State.setRunState_getC0 (r : RunState) (k : Reg) : (s.setRunState r).getC0 k = s.getC0 k := rfl
@[simp] theorem State.setRunState_isolate (r : RunState) : (s.setRunState r).isolate = s.isolate := rfl
@[simp] theorem State.setRunState_bev (r : RunState) : (s.setRunState r).bev = s.bev := rfl
@[simp] theorem State.setRunState_cu2 (r : RunState) : (s.setRunState r).cu2 = s.cu2 := rfl

/-! ## throwException -/

@[simp] theorem throwException_inRegs (c : Cause) : (throwException c s).inRegs = s.inRegs := rfl
@[simp] theorem throwException_outRegs (c : Cause) : (throwException c s).outRegs = s.outRegs := rfl
@[simp] theorem throwException_hi (c : Cause) : (throwException c s).hi = s.hi := rfl
@[simp] theorem throwException_lo (c : Cause) : (throwException c s).lo = s.lo := rfl
@[simp] theorem throwException_cpc (c : Cause) : (throwException c s).cpc = s.cpc := rfl
@[simp] theorem throwException_pc (c : Cause) : (throwException c s).pc = exceptionVector s.bev := rfl
@[simp] theorem throwException_npc (c : Cause) : (throwException c s).npc = exceptionVector s.bev + 4 := rfl
@[simp] theorem throwException_loadDelayTarget (c : Cause) : (throwException c s).loadDelayTarget = s.loadDelayTarget := rfl
@[simp] theorem throwException_loadDelayValue (c : Cause) : (throwException c s).loadDelayValue = s.loadDelayValue := rfl
@[simp] theorem throwException_runState (c : Cause) : (throwException c s).runState = s.runState := rfl
@[simp] theorem throwException_haltReason (c : Cause) : (throwException c s).haltReason = s.haltReason := rfl
@[simp] theorem throwException_breakpoints (c : Cause) : (throwException c s).breakpoints = s.breakpoints := rfl
@[simp] theorem throwException_instrExecCnt (c : Cause) : (throwException c s).instrExecCnt = s.instrExecCnt := rfl
@[simp] theorem throwException_platform (c : Cause) : (throwException c s).platform = s.platform := rfl
@[simp] theorem throwException_mem (c : Cause) : (throwException c s).mem = s.mem := rfl
@[simp] theorem throwException_devHistory (c : Cause) : (throwException c s).devHistory = s.devHistory := rfl
@[simp] theorem throwException_getReg (c : Cause) (r : Reg) : (throwException c s).getReg r = s.getReg r := rfl
@[simp] theorem throwException_getOut (c : Cause) (r : Reg) : (throwException c s).getOut r = s.getOut r := rfl

/-! ## haltOn -/

@[simp] theorem State.haltOn_inRegs (r : HostFault) (h : List DeviceEvent) : (s.haltOn (.hostFault r h)).inRegs = s.inRegs := rfl
@[simp] theorem State.haltOn_outRegs (r : HostFault) (h : List DeviceEvent) : (s.haltOn (.hostFault r h)).outRegs = s.outRegs := rfl
@[simp] theorem State.haltOn_hi (r : HostFault) (h : List DeviceEvent) : (s.haltOn (.hostFault r h)).hi = s.hi := rfl
@[simp] theorem State.haltOn_lo (r : HostFault) (h : List DeviceEvent) : (s.haltOn (.hostFault r h)).lo = s.lo := rfl
@[simp] theorem State.haltOn_cpc (r : HostFault) (h : List DeviceEvent) : (s.haltOn (.hostFault r h)).cpc = s.cpc := rfl
@[simp] theorem State.haltOn_pc (r : HostFault) (h : List DeviceEvent) : (s.haltOn (.hostFault r h)).pc = s.pc := rfl
@[simp] theorem State.haltOn_npc (r : HostFault) (h : List DeviceEvent) : (s.haltOn (.hostFault r h)).npc = s.npc := rfl
@[simp] theorem State.haltOn_loadDelayTarget (r : HostFault) (h : List DeviceEvent) : (s.haltOn (.hostFault r h)).loadDelayTarget = s.loadDelayTarget := rfl
@[simp] theorem State.haltOn_loadDelayValue (r : HostFault) (h : List DeviceEvent) : (s.haltOn (.hostFault r h)).loadDelayValue = s.loadDelayValue := rfl
@[simp] theorem State.haltOn_c0regs (r : HostFault) (h : List DeviceEvent) : (s.haltOn (.hostFault r h)).c0regs = s.c0regs := rfl
@[simp] theorem State.haltOn_runState (r : HostFault) (h : List DeviceEvent) : (s.haltOn (.hostFault r h)).runState = .halted := rfl
@[simp] theorem State.haltOn_haltReason (r : HostFault) (h : List DeviceEvent) : (s.haltOn (.hostFault r h)).haltReason = some r := rfl
@[simp] theorem State.haltOn_breakpoints (r : HostFault) (h : List DeviceEvent) : (s.haltOn (.hostFault r h)).breakpoints = s.breakpoints := rfl
@[simp] theorem State.haltOn_instrExecCnt (r : HostFault) (h : List DeviceEvent) : (s.haltOn (.hostFault r h)).instrExecCnt = s.instrExecCnt := rfl
@[simp] theorem State.haltOn_platform (r : HostFault) (h : List DeviceEvent) : (s.haltOn (.hostFault r h)).platform = s.platform := rfl
@[simp] theorem State.haltOn_mem (r : HostFault) (h : List DeviceEvent) : (s.haltOn (.hostFault r h)).mem = s.mem := rfl
@[simp] theorem State.haltOn_devHistory (r : HostFault) (h : List DeviceEvent) : (s.haltOn (.hostFault r h)).devHistory = h := rfl

/-! ## Banks and COP0 slots -/

/-- What a bank holds after a write: register 0 is 0, the written register the value, the rest as before (10_state.md
R31; 40_tick_pipeline.md R177). -/
theorem writeBank_get (f : RegFile) (i j : Reg) (v : Word) :
    (writeBank f i v)[j.val] = if j = 0 then 0 else if j = i then v else f[j.val] := by
  unfold writeBank
  rw [Vector.getElem_set]
  by_cases h0 : j = 0
  · simp [h0]
  · have h0' : (0 : Nat) ≠ j.val := fun h => h0 (Fin.ext h.symm)
    rw [if_neg h0', if_neg h0, Vector.getElem_set]
    by_cases hij : j = i
    · simp [hij]
    · rw [if_neg (fun h => hij (Fin.ext h.symm)), if_neg hij]

@[simp] theorem State.getOut_setReg (i j : Reg) (v : Word) :
    (s.setReg i v).getOut j = if j = 0 then 0 else if j = i then v else s.getOut j :=
  writeBank_get s.outRegs i j v

@[simp] theorem State.getOut_commitLoad (j : Reg) :
    s.commitLoad.getOut j = if j = 0 then 0 else if j = s.loadDelayTarget then s.loadDelayValue else s.getOut j :=
  writeBank_get s.outRegs s.loadDelayTarget j s.loadDelayValue

/-- Two banks with the same entries are one bank. -/
theorem regFile_ext {f g : RegFile} (h : ∀ j : Reg, f[j.val] = g[j.val]) : f = g :=
  Vector.ext fun i hi => h ⟨i, hi⟩

@[simp] theorem State.getC0_setC0 (n k : Reg) (v : Word) :
    (s.setC0 n v).getC0 k = if k = n then v else s.getC0 k := by
  unfold State.getC0 State.setC0
  rw [Vector.getElem_set]
  by_cases h : k = n
  · simp [h]
  · rw [if_neg (fun e => h (Fin.ext e.symm)), if_neg h]

@[simp] theorem State.getC0_popMode (k : Reg) :
    s.popMode.getC0 k = if k = srSlot then popModeStack (s.getC0 srSlot) else s.getC0 k :=
  State.getC0_setC0 s srSlot k _

/-- The COP0 slots after an exception: SR, Cause and EPC are written, the rest unchanged (60_exceptions.md R382). -/
theorem throwException_getC0 (c : Cause) (k : Reg) :
    (throwException c s).getC0 k =
      if k = epcSlot then epcWord s.cpc s.inDelaySlot
      else if k = causeSlot then causeWord c s.inDelaySlot
      else if k = srSlot then pushModeStack (s.getC0 srSlot)
      else s.getC0 k := by
  have h (f : RegFile) (n : Reg) (v : Word) : (f.set n.val v)[k.val] = if k = n then v else f[k.val] := by
    rw [Vector.getElem_set]
    by_cases e : k = n
    · simp [e]
    · rw [if_neg (fun q => e (Fin.ext q.symm)), if_neg e]
  show (((s.c0regs.set srSlot.val _).set causeSlot.val _).set epcSlot.val _)[k.val] = _
  rw [h, h, h]
  rfl

end Sys2Proof.Machine
end

