-- ==== Sys2Proof/Laws/Ops.lean ====
section
/-! SUPPORT. For each shared operation, everything it can do: the bus, the bodies of the meanings, taking an exception. -/

namespace Sys2Proof.Machine

/-! ## The translator and alignment -/

/-- The masks leave bits 1:0 unchanged (20_memory.md R91). -/
theorem bits_translateAddr_low (a : Word) (len : Nat) (h : len ≤ 2) :
    bits (translateAddr a) 0 len = bits a 0 len := by
  have key (m : Word) (hm : m.toNat % 4 = 3) : bits (m &&& a) 0 len = bits a 0 len := by
    unfold bits
    have h4 : (m &&& a).toNat % 4 = a.toNat % 4 := by
      rw [BitVec.toNat_and]
      have e (x : Nat) : x % 4 = x &&& 3 := (Nat.and_two_pow_sub_one_eq_mod x 2).symm
      have hm3 : m.toNat &&& 3 = 3 := by rw [← e]; exact hm
      rw [e, e, Nat.and_assoc, Nat.and_comm a.toNat 3, ← Nat.and_assoc, hm3, Nat.and_comm]
    obtain rfl | rfl | rfl : len = 0 ∨ len = 1 ∨ len = 2 := by omega
    all_goals omega
  unfold translateAddr segmentMask
  split <;> exact key _ (by decide)

/-- Checking the translated address for alignment is checking the logical one (20_memory.md R91). -/
@[simp] theorem misaligned_translateAddr (a : Word) (w : Width) : misaligned (translateAddr a) w = misaligned a w := by
  cases w with
  | byte => rfl
  | half => unfold misaligned; rw [bits_translateAddr_low a 1 (by omega)]
  | word => unfold misaligned; rw [bits_translateAddr_low a 2 (by omega)]

/-- The aligned containing word is aligned (43_loadstore.md R291). -/
@[simp] theorem misaligned_alignWord (a : Word) : misaligned (alignWord a) .word = false := by
  unfold misaligned alignWord bits
  have h : (a &&& 0xFFFFFFFC).toNat % 4 = 0 := by
    rw [BitVec.toNat_and]
    have e (x : Nat) : x % 4 = x &&& 3 := (Nat.and_two_pow_sub_one_eq_mod x 2).symm
    rw [e, Nat.and_assoc]
    exact Nat.and_zero _
  exact decide_eq_false (fun n => n (by omega))

/-! ## Routing and width dispatch -/

theorem busRoute_ok_iff {a : Word} {k : AccessKind} {w : Width} {s : State} {b : Binding} :
    busRoute a k w s = .ok b ↔
      misaligned a w = false ∧ route s.platform (translateAddr a) = some b ∧ offers b k w = true := by
  unfold busRoute
  rw [misaligned_translateAddr]
  cases hm : misaligned a w with
  | true => simp
  | false =>
    cases hr : route s.platform (translateAddr a) with
    | none => simp
    | some c =>
      by_cases ho : offers c k w = true
      · simp only [Bool.false_eq_true, if_false, ho, if_true, true_and, Except.ok.injEq, Option.some.injEq]
        exact ⟨fun e => by subst e; exact ⟨rfl, ho⟩, fun e => e.1⟩
      · simp only [Bool.false_eq_true, if_false, ho, true_and, Option.some.injEq, reduceCtorEq, false_iff, not_and]
        rintro rfl
        exact ho

/-- Routing fails in three ways only (20_memory.md R89 to R91). -/
theorem busRoute_error_iff {a : Word} {k : AccessKind} {w : Width} {s : State} {r : HostFault} :
    busRoute a k w s = .error r ↔
      (misaligned a w = true ∧ r = .busMisaligned a w) ∨
      (misaligned a w = false ∧ route s.platform (translateAddr a) = none ∧ r = .unmapped (translateAddr a)) ∨
      (misaligned a w = false ∧ ∃ b, route s.platform (translateAddr a) = some b ∧ offers b k w = false ∧
        r = .unsupportedWidth b k w) := by
  unfold busRoute
  rw [misaligned_translateAddr]
  cases hm : misaligned a w with
  | true => simp [@eq_comm _ r]
  | false =>
    cases hr : route s.platform (translateAddr a) with
    | none => simp [@eq_comm _ r]
    | some c =>
      cases ho : offers c k w with
      | true => simp [ho]
      | false => simp [ho, @eq_comm _ r]

/-- Routing reads nothing of the state but the binding list. -/
theorem busRoute_congr {a : Word} {k : AccessKind} {w : Width} {s t : State} (h : t.platform = s.platform) :
    busRoute a k w t = busRoute a k w s := by
  unfold busRoute
  rw [h]

/-! ## Devices -/

theorem deviceFetch_memory {b : Binding} {base : Nat} (h : b.device = .memory base) (off : Word) (w : Width)
    (s : State) : deviceFetch b off w s = (s.mem.readLE (base + off.toNat) w, s) := by
  unfold deviceFetch; rw [h]

theorem deviceFetch_rom {b : Binding} {base : Nat} (h : b.device = .rom base) (off : Word) (w : Width) (s : State) :
    deviceFetch b off w s = (s.mem.readLE (base + off.toNat) w, s) := by
  unfold deviceFetch; rw [h]

theorem deviceFetch_opaqueUnit {b : Binding} {id : Nat} (h : b.device = .opaqueUnit id) (off : Word) (w : Width)
    (s : State) :
    deviceFetch b off w s = (drawValue s.devHistory b off w, s.recordEvent (.fetch b off w)) := by
  unfold deviceFetch; rw [h]

/-- A fetch changes at most the record of device accesses, by one fetch (20_memory.md R102, R106). -/
theorem deviceFetch_state (b : Binding) (off : Word) (w : Width) (s : State) :
    (deviceFetch b off w s).2 = s ∨ (deviceFetch b off w s).2 = s.recordEvent (.fetch b off w) := by
  unfold deviceFetch
  split
  · exact .inl rfl
  · exact .inl rfl
  · exact .inr rfl

theorem deviceStore_memory {b : Binding} {base : Nat} (h : b.device = .memory base) (off : Word) (w : Width)
    (v : Word) (s : State) :
    deviceStore b off w v s = s.setMem (s.mem.writeLE (base + off.toNat) v w) := by
  unfold deviceStore; rw [h]

theorem deviceStore_opaqueUnit {b : Binding} {id : Nat} (h : b.device = .opaqueUnit id) (off : Word) (w : Width)
    (v : Word) (s : State) :
    deviceStore b off w v s = s.recordEvent (.store b off w (storeValue v w)) := by
  unfold deviceStore; rw [h]

/-- A store changes a memory device's bytes, or the record of device accesses, or nothing (20_memory.md R98, R99,
R102). -/
theorem deviceStore_state (b : Binding) (off : Word) (w : Width) (v : Word) (s : State) :
    (∃ base, b.device = .memory base ∧
      deviceStore b off w v s = s.setMem (s.mem.writeLE (base + off.toNat) v w)) ∨
    (∃ base, b.device = .rom base ∧ deviceStore b off w v s = s) ∨
    (∃ id, b.device = .opaqueUnit id ∧
      deviceStore b off w v s = s.recordEvent (.store b off w (storeValue v w))) := by
  unfold deviceStore
  split
  · rename_i base h; exact .inl ⟨base, h, rfl⟩
  · rename_i base h; exact .inr (.inl ⟨base, h, rfl⟩)
  · rename_i id h; exact .inr (.inr ⟨id, h, rfl⟩)

/-! ## The bus -/

theorem busFetch_ok_iff {a : Word} {w : Width} {s t : State} {v : Word} :
    busFetch a w s = .ok (v, t) ↔
      ∃ b, busRoute a .fetch w s = .ok b ∧ deviceFetch b (translateAddr a - b.start) w s = (v, t) := by
  unfold busFetch
  split
  · rename_i r h; simp [h]
  · rename_i b h; simp [h]

theorem busFetch_error_iff {a : Word} {w : Width} {s : State} {f : Fault} :
    busFetch a w s = .error f ↔ ∃ r, busRoute a .fetch w s = .error r ∧ f = .hostFault r s.devHistory := by
  unfold busFetch
  split
  · rename_i r h; simp [h, @eq_comm _ f]
  · rename_i b h; simp [h]

theorem busStore_ok_iff {a : Word} {w : Width} {v : Word} {s t : State} :
    busStore a w v s = .ok t ↔
      ∃ b, busRoute a .store w s = .ok b ∧ deviceStore b (translateAddr a - b.start) w v s = t := by
  unfold busStore
  split
  · rename_i r h; simp [h]
  · rename_i b h; simp [h]

theorem busStore_error_iff {a : Word} {w : Width} {v : Word} {s : State} {f : Fault} :
    busStore a w v s = .error f ↔ ∃ r, busRoute a .store w s = .error r ∧ f = .hostFault r s.devHistory := by
  unfold busStore
  split
  · rename_i r h; simp [h, @eq_comm _ f]
  · rename_i b h; simp [h]

/-- A bus fetch leaves the state alone but for one recorded fetch of an opaque device. -/
theorem busFetch_state {a : Word} {w : Width} {s t : State} {v : Word} (h : busFetch a w s = .ok (v, t)) :
    t = s ∨ ∃ b off, t = s.recordEvent (.fetch b off w) := by
  obtain ⟨b, -, hd⟩ := busFetch_ok_iff.1 h
  have := deviceFetch_state b (translateAddr a - b.start) w s
  rw [hd] at this
  exact this.imp id fun e => ⟨b, _, e⟩

/-! ## Shared bodies: when they go on, and with what -/

@[simp] theorem raise_next {c : Cause} {s t : State} : raise c s = .next t ↔ t = throwException c s := by
  simp [raise, @eq_comm _ t]

@[simp] theorem writeReg_next {rd : Reg} {v : Word} {s t : State} : writeReg rd v s = .next t ↔ t = s.setReg rd v := by
  simp [writeReg, @eq_comm _ t]

@[simp] theorem writeHiLo_next {p : Word × Word} {s t : State} :
    writeHiLo p s = .next t ↔ t = (s.setHi p.1).setLo p.2 := by
  simp [writeHiLo, @eq_comm _ t]

theorem branchIf_next {c : Bool} {imm16 : BitVec 16} {s t : State} :
    branchIf c imm16 s = .next t ↔ t = if c then s.setNpc (branchTarget s.npc imm16) else s := by
  unfold branchIf
  cases c <;> simp [@eq_comm _ t]

theorem linkBranchIf_next {c : Bool} {imm16 : BitVec 16} {s t : State} :
    linkBranchIf c imm16 s = .next t ↔
      t = if c then (s.setReg 31 s.npc).setNpc (branchTarget s.npc imm16) else s.setReg 31 s.npc :=
  branchIf_next

theorem loadDelayed_next {rt : Reg} {ea : Word} {w : Width} {ext : Word → Word} {s t : State} :
    loadDelayed rt ea w ext s = .next t ↔ ∃ v u, busFetch ea w s = .ok (v, u) ∧ t = u.setRegDelayed rt (ext v) := by
  unfold loadDelayed
  split
  · simp_all
  · rename_i v u h
    simp only [h, Host.Outcome.next.injEq, Except.ok.injEq, Prod.mk.injEq]
    constructor
    · intro e; exact ⟨v, u, ⟨rfl, rfl⟩, e.symm⟩
    · rintro ⟨v', u', ⟨rfl, rfl⟩, rfl⟩; rfl

theorem loadDelayed_fault {rt : Reg} {ea : Word} {w : Width} {ext : Word → Word} {s : State} {f : Fault} :
    loadDelayed rt ea w ext s = .fault f ↔ busFetch ea w s = .error f := by
  unfold loadDelayed
  split <;> simp_all

theorem loadMerged_next {rt : Reg} {ea : Word} {merge : Nat → Word → Word → Word} {s t : State} :
    loadMerged rt ea merge s = .next t ↔
      ∃ v u, busFetch (alignWord ea) .word s = .ok (v, u) ∧ t = u.setReg rt (merge (bits ea 0 2) v (s.getReg rt)) := by
  unfold loadMerged
  split
  · simp_all
  · rename_i v u h
    simp only [h, Host.Outcome.next.injEq, Except.ok.injEq, Prod.mk.injEq]
    constructor
    · intro e; exact ⟨v, u, ⟨rfl, rfl⟩, e.symm⟩
    · rintro ⟨v', u', ⟨rfl, rfl⟩, rfl⟩; rfl

theorem loadMerged_fault {rt : Reg} {ea : Word} {merge : Nat → Word → Word → Word} {s : State} {f : Fault} :
    loadMerged rt ea merge s = .fault f ↔ busFetch (alignWord ea) .word s = .error f := by
  unfold loadMerged
  split <;> simp_all

theorem storeAt_next {ea : Word} {w : Width} {v : Word} {s t : State} :
    storeAt ea w v s = .next t ↔ busStore ea w v s = .ok t := by
  unfold storeAt
  split <;> simp_all

theorem storeAt_fault {ea : Word} {w : Width} {v : Word} {s : State} {f : Fault} :
    storeAt ea w v s = .fault f ↔ busStore ea w v s = .error f := by
  unfold storeAt
  split <;> simp_all

theorem storeMerged_next {ea : Word} {merge : Nat → Word → Word → Word} {v : Word} {s t : State} :
    storeMerged ea merge v s = .next t ↔
      ∃ m u, busFetch (alignWord ea) .word s = .ok (m, u) ∧
        busStore (alignWord ea) .word (merge (bits ea 0 2) m v) u = .ok t := by
  unfold storeMerged
  split
  · simp_all
  · rename_i m u h
    simp only [storeAt_next, h, Except.ok.injEq, Prod.mk.injEq]
    constructor
    · intro e; exact ⟨m, u, ⟨rfl, rfl⟩, e⟩
    · rintro ⟨m', u', ⟨rfl, rfl⟩, e⟩; exact e

theorem storeMerged_fault {ea : Word} {merge : Nat → Word → Word → Word} {v : Word} {s : State} {f : Fault} :
    storeMerged ea merge v s = .fault f ↔
      busFetch (alignWord ea) .word s = .error f ∨
      ∃ m u, busFetch (alignWord ea) .word s = .ok (m, u) ∧
        busStore (alignWord ea) .word (merge (bits ea 0 2) m v) u = .error f := by
  unfold storeMerged
  split
  · rename_i g h; simp [h]
  · rename_i m u h
    simp only [storeAt_fault, h, Except.ok.injEq, Prod.mk.injEq, reduceCtorEq, false_or]
    constructor
    · intro e; exact ⟨m, u, ⟨rfl, rfl⟩, e⟩
    · rintro ⟨m', u', ⟨rfl, rfl⟩, e⟩; exact e

/-! ## Shared bodies never refuse -/

@[simp] theorem raise_refused {c : Cause} {s : State} {r : Refusal} : raise c s ≠ .refused r := by simp [raise]

@[simp] theorem raise_fault {c : Cause} {s : State} {f : Fault} : raise c s ≠ .fault f := by simp [raise]

@[simp] theorem writeReg_refused {rd : Reg} {v : Word} {s : State} {r : Refusal} : writeReg rd v s ≠ .refused r := by
  simp [writeReg]

@[simp] theorem writeReg_fault {rd : Reg} {v : Word} {s : State} {f : Fault} : writeReg rd v s ≠ .fault f := by
  simp [writeReg]

@[simp] theorem writeHiLo_refused {p : Word × Word} {s : State} {r : Refusal} : writeHiLo p s ≠ .refused r := by
  simp [writeHiLo]

@[simp] theorem writeHiLo_fault {p : Word × Word} {s : State} {f : Fault} : writeHiLo p s ≠ .fault f := by
  simp [writeHiLo]

@[simp] theorem branchIf_refused {c : Bool} {imm16 : BitVec 16} {s : State} {r : Refusal} :
    branchIf c imm16 s ≠ .refused r := by unfold branchIf; split <;> simp

@[simp] theorem branchIf_fault {c : Bool} {imm16 : BitVec 16} {s : State} {f : Fault} :
    branchIf c imm16 s ≠ .fault f := by unfold branchIf; split <;> simp

@[simp] theorem linkBranchIf_refused {c : Bool} {imm16 : BitVec 16} {s : State} {r : Refusal} :
    linkBranchIf c imm16 s ≠ .refused r := branchIf_refused

@[simp] theorem linkBranchIf_fault {c : Bool} {imm16 : BitVec 16} {s : State} {f : Fault} :
    linkBranchIf c imm16 s ≠ .fault f := branchIf_fault

@[simp] theorem loadDelayed_refused {rt : Reg} {ea : Word} {w : Width} {ext : Word → Word} {s : State}
    {r : Refusal} : loadDelayed rt ea w ext s ≠ .refused r := by unfold loadDelayed; split <;> simp

@[simp] theorem loadMerged_refused {rt : Reg} {ea : Word} {merge : Nat → Word → Word → Word} {s : State}
    {r : Refusal} : loadMerged rt ea merge s ≠ .refused r := by unfold loadMerged; split <;> simp

@[simp] theorem storeAt_refused {ea : Word} {w : Width} {v : Word} {s : State} {r : Refusal} :
    storeAt ea w v s ≠ .refused r := by unfold storeAt; split <;> simp

@[simp] theorem storeMerged_refused {ea : Word} {merge : Nat → Word → Word → Word} {v : Word} {s : State}
    {r : Refusal} : storeMerged ea merge v s ≠ .refused r := by
  unfold storeMerged; split <;> simp

end Sys2Proof.Machine
end

