-- ==== Sys2Proof/Laws/Step.lean ====
section
/-! SUPPORT. What a tick can do, said once (40_tick_pipeline.md R170, R171): no instruction is refused, a tick always
answers a next state, and that state arises in one of four ways. -/

namespace Sys2Proof.Machine

/-- No instruction is refused: every row of the table has its meaning. -/
theorem exec_not_refused (i : Instr) (s : State) (r : Refusal) : exec i s ≠ .refused r := by
  cases i <;> dsimp only [exec, execSll, execSrl, execSra, execSllv, execSrlv, execSrav, execJr, execJalr, execSyscall, execBreak, execMfhi, execMthi, execMflo, execMtlo, execMult, execMultu, execDiv, execDivu, execAdd, execAddu, execSub, execSubu, execAnd, execOr, execXor, execNor, execSlt, execSltu, execBltz, execBgez, execBltzal, execBgezal, execJ, execJal, execBeq, execBne, execBlez, execBgtz, execAddi, execAddiu, execSlti, execSltiu, execAndi, execOri, execXori, execLui, execMfc0, execMtc0, execRfe, execLb, execLh, execLwl, execLw, execLbu, execLhu, execLwr, execSb, execSh, execSwl, execSw, execSwr, execCop1, execCop3, execLwc0, execLwc1, execLwc3, execSwc0, execSwc1, execSwc3, execCop2, execLwc2, execSwc2] <;>
    (try split) <;> (try split) <;> simp [gteWord]
  all_goals (split <;> simp)

theorem executeWord_not_refused (ins : Word) (s : State) (r : Refusal) : executeWord ins s ≠ .refused r := by
  unfold executeWord
  split
  · exact exec_not_refused _ _ _
  · exact raise_refused

/-! ## finishTick and settleTick -/

theorem finishTick_next {o : Result} {t : State} :
    finishTick o = .next t ↔ ∃ u, o = .next u ∧ t = u.commitBanks.retire := by
  cases o <;> simp [finishTick, @eq_comm _ t]

theorem finishTick_fault {o : Result} {f : Fault} : finishTick o = .fault f ↔ o = .fault f := by
  cases o <;> simp [finishTick]

theorem finishTick_refused {o : Result} {r : Refusal} : finishTick o = .refused r ↔ o = .refused r := by
  cases o <;> simp [finishTick]

/-! ## The body of a running tick -/

/-- Step 1 with a misaligned pc (R172). -/
theorem tickBody_misaligned {s : State} (h : misaligned s.pc .word = true) :
    tickBody s = .next (throwException .addressErrorLoad s.latchCpc) := by
  unfold tickBody
  rw [State.latchCpc_cpc, if_pos h]

/-- A fetch that hits a host fault (R173). -/
theorem tickBody_fetch_fault {s : State} {f : Fault} (h : misaligned s.pc .word = false)
    (hf : busFetch s.pc .word s.latchCpc = .error f) : tickBody s = .fault f := by
  unfold tickBody
  rw [State.latchCpc_cpc, if_neg (by simp [h]), hf]

/-- A tick that fetches the word `ins` (R171, steps 3 to 7). -/
theorem tickBody_fetched {s u : State} {ins : Word} (h : misaligned s.pc .word = false)
    (hf : busFetch s.pc .word s.latchCpc = .ok (ins, u)) :
    tickBody s = finishTick (executeWord ins u.advance.commitLoad) := by
  unfold tickBody
  rw [State.latchCpc_cpc, if_neg (by simp [h]), hf]

theorem tickBody_not_refused (s : State) (r : Refusal) : tickBody s ≠ .refused r := by
  cases hm : misaligned s.pc .word with
  | true => rw [tickBody_misaligned hm]; simp
  | false =>
    cases hf : busFetch s.pc .word s.latchCpc with
    | error f => rw [tickBody_fetch_fault hm hf]; simp
    | ok p =>
      rw [tickBody_fetched hm hf]
      intro h
      exact executeWord_not_refused _ _ _ (finishTick_refused.1 h)

/-! ## One step -/

theorem step_running {s : State} (h : s.runState = .running) : step s = settleTick s (tickBody s) := by
  unfold step
  rw [h]

theorem step_not_running {s : State} (h : s.runState ≠ .running) : step s = .next s := by
  unfold step
  split
  · exact absurd ‹_› h
  · rfl
  · rfl

/-- What one step can do: nothing (not running); the step-1 exception; a host fault; or steps 2 to 7. -/
theorem step_cases {s t : State} (h : step s = .next t) :
    (s.runState ≠ .running ∧ t = s) ∨
    (s.runState = .running ∧ misaligned s.pc .word = true ∧ t = throwException .addressErrorLoad s.latchCpc) ∨
    (s.runState = .running ∧ misaligned s.pc .word = false ∧ ∃ f, tickBody s = .fault f ∧ t = s.haltOn f) ∨
    (s.runState = .running ∧ misaligned s.pc .word = false ∧ ∃ ins u v,
      busFetch s.pc .word s.latchCpc = .ok (ins, u) ∧ executeWord ins u.advance.commitLoad = .next v ∧
        t = v.commitBanks.retire) := by
  by_cases hr : s.runState = .running
  · rw [step_running hr] at h
    cases hm : misaligned s.pc .word with
    | true =>
      rw [tickBody_misaligned hm] at h
      simp only [settleTick, Host.Outcome.next.injEq] at h
      exact .inr (.inl ⟨hr, rfl, h.symm⟩)
    | false =>
      cases hb : tickBody s with
      | refused r => exact absurd hb (tickBody_not_refused s r)
      | fault f =>
        rw [hb] at h
        simp only [settleTick, Host.Outcome.next.injEq] at h
        exact .inr (.inr (.inl ⟨hr, rfl, f, rfl, h.symm⟩))
      | next w =>
        rw [hb] at h
        simp only [settleTick, Host.Outcome.next.injEq] at h
        subst h
        cases hf : busFetch s.pc .word s.latchCpc with
        | error f => rw [tickBody_fetch_fault hm hf] at hb; simp at hb
        | ok p =>
          obtain ⟨ins, u⟩ := p
          rw [tickBody_fetched hm hf] at hb
          obtain ⟨v, hv, hw⟩ := finishTick_next.1 hb
          exact .inr (.inr (.inr ⟨hr, rfl, ins, u, v, rfl, hv, hw⟩))
  · rw [step_not_running hr] at h
    simp only [Host.Outcome.next.injEq] at h
    exact .inl ⟨hr, h.symm⟩

/-- A step always answers a next state. -/
theorem step_next (s : State) : ∃ t, step s = .next t := by
  by_cases hr : s.runState = .running
  · rw [step_running hr]
    cases hb : tickBody s with
    | next w => exact ⟨w, rfl⟩
    | fault f => exact ⟨s.haltOn f, rfl⟩
    | refused r => exact absurd hb (tickBody_not_refused s r)
  · exact ⟨s, step_not_running hr⟩

end Sys2Proof.Machine
end

