-- ==== Sys2Proof/Laws/Exec.lean ====
section
/-! SUPPORT. Everything an instruction can do when it goes on, said once; the frames and the whole-machine rules
follow from it without unfolding a meaning. -/

namespace Sys2Proof.Machine

/-- The state a next state of `exec i s` can be. `u` is the state a bus fetch left: `s`, or `s` with one recorded
fetch. -/
inductive Effect (i : Instr) (s : State) : State → Prop where
  /-- The instruction raised an exception (60_exceptions.md R388). -/
  | trap (c : Cause) : Effect i s (throwException c s)
  /-- Nothing: a store or LW under isolation (43_loadstore.md R282). -/
  | nothing : Effect i s s
  /-- One register (40_tick_pipeline.md R177). -/
  | register (r : Reg) (v : Word) : Effect i s (s.setReg r v)
  /-- hi and lo (42_muldiv.md). -/
  | hiLo (a b : Word) (h : i.writesHiLo = true) : Effect i s ((s.setHi a).setLo b)
  /-- A branch or jump without a link: npc, or nothing where it is not taken (44_control.md R320). -/
  | branch (n : Word) (h : i.isControl = true) : Effect i s (s.setNpc n)
  /-- A branch or jump with a link. -/
  | link (r : Reg) (v n : Word) (h : i.isControl = true) : Effect i s ((s.setReg r v).setNpc n)
  /-- MFC0 (45_system.md R352). -/
  | stageC0 (r k : Reg) (h : i = .mfc0 r k) : Effect i s (s.setRegDelayed r (s.getC0 k))
  /-- MTC0 (45_system.md R353). -/
  | writeC0 (r k : Reg) (h : i = .mtc0 r k) : Effect i s (s.setC0 k (s.getReg r))
  /-- RFE (45_system.md R354). -/
  | popMode (h : i = .rfe) : Effect i s s.popMode
  /-- A delayed load (43_loadstore.md R283 to R287). -/
  | load (a : Word) (w : Width) (x : Word) (u : State) (r : Reg) (v : Word) (h : busFetch a w s = .ok (x, u)) :
      Effect i s (u.setRegDelayed r v)
  /-- LWL, LWR (43_loadstore.md R291, R292). -/
  | merge (a : Word) (x : Word) (u : State) (r : Reg) (v : Word) (h : busFetch a .word s = .ok (x, u)) :
      Effect i s (u.setReg r v)
  /-- SB, SH, SW (43_loadstore.md R288 to R290). -/
  | store (a : Word) (w : Width) (v : Word) (t : State) (h : busStore a w v s = .ok t) : Effect i s t
  /-- SWL, SWR (43_loadstore.md R293, R294). -/
  | mergeStore (a x : Word) (u : State) (v : Word) (t : State) (hf : busFetch a .word s = .ok (x, u))
      (h : busStore a .word v u = .ok t) : Effect i s t

theorem effect_branchIf {i : Instr} {s t : State} {c : Bool} {imm16 : BitVec 16} (h : branchIf c imm16 s = .next t)
    (hi : i.isControl = true) : Effect i s t := by
  rw [branchIf_next] at h
  subst h
  cases c with
  | false => exact .branch s.npc hi
  | true => exact .branch _ hi

theorem effect_linkBranchIf {i : Instr} {s t : State} {c : Bool} {imm16 : BitVec 16}
    (h : linkBranchIf c imm16 s = .next t) (hi : i.isControl = true) : Effect i s t := by
  rw [linkBranchIf_next] at h
  subst h
  cases c with
  | false => exact .link 31 s.npc s.npc hi
  | true => exact .link 31 s.npc _ hi

theorem effect_loadDelayed {i : Instr} {s t : State} {r : Reg} {a : Word} {w : Width} {x : Word → Word}
    (h : loadDelayed r a w x s = .next t) : Effect i s t := by
  obtain ⟨v, u, hf, rfl⟩ := loadDelayed_next.1 h
  exact .load a w v u r _ hf

theorem effect_loadMerged {i : Instr} {s t : State} {r : Reg} {a : Word} {m : Nat → Word → Word → Word}
    (h : loadMerged r a m s = .next t) : Effect i s t := by
  obtain ⟨v, u, hf, rfl⟩ := loadMerged_next.1 h
  exact .merge _ v u r _ hf

theorem effect_storeAt {i : Instr} {s t : State} {a : Word} {w : Width} {v : Word} (h : storeAt a w v s = .next t) :
    Effect i s t := .store a w v t (storeAt_next.1 h)

theorem effect_storeMerged {i : Instr} {s t : State} {a : Word} {m : Nat → Word → Word → Word} {v : Word}
    (h : storeMerged a m v s = .next t) : Effect i s t := by
  obtain ⟨x, u, hf, hs⟩ := storeMerged_next.1 h
  exact .mergeStore _ x u _ t hf hs

theorem effect_gteWord {i : Instr} {s t : State} {w : Word} (h : gteWord w s = .next t) : Effect i s t := by
  unfold gteWord at h
  split at h
  · simp at h
  · rw [raise_next] at h; subst h; exact .trap _

/-- Every next state of an instruction is one of these. -/
theorem exec_effect {i : Instr} {s t : State} (h : exec i s = .next t) : Effect i s t := by
  cases i
  case sll | srl | sra | sllv | srlv | srav | addu | subu | and | or | xor | nor | slt | sltu | mfhi | mflo | addiu
      | slti | sltiu | andi | ori | xori | lui =>
    obtain rfl := writeReg_next.1 h
    exact .register _ _
  case mult | multu | div | divu =>
    obtain rfl := writeHiLo_next.1 h
    exact .hiLo _ _ rfl
  case mthi rs => obtain rfl := Host.Outcome.next.inj h; exact .hiLo (s.getReg rs) s.lo rfl
  case mtlo rs => obtain rfl := Host.Outcome.next.inj h; exact .hiLo s.hi (s.getReg rs) rfl
  case jr | j => obtain rfl := Host.Outcome.next.inj h; exact .branch _ rfl
  case jalr | jal => obtain rfl := Host.Outcome.next.inj h; exact .link _ _ _ rfl
  case beq | bne | blez | bgtz | bltz | bgez => exact effect_branchIf h rfl
  case bltzal | bgezal => exact effect_linkBranchIf h rfl
  case syscall | brk | cop1 | cop3 | lwc0 | lwc1 | lwc3 | swc0 | swc1 | swc3 =>
    obtain rfl := raise_next.1 h
    exact .trap _
  case cop2 | lwc2 | swc2 => exact effect_gteWord h
  case mfc0 => obtain rfl := Host.Outcome.next.inj h; exact .stageC0 _ _ rfl
  case mtc0 => obtain rfl := Host.Outcome.next.inj h; exact .writeC0 _ _ rfl
  case rfe => obtain rfl := Host.Outcome.next.inj h; exact .popMode rfl
  case add | sub | addi =>
    dsimp only [exec, execAdd, execSub, execAddi] at h
    split at h
    · obtain rfl := raise_next.1 h; exact .trap _
    · obtain rfl := writeReg_next.1 h; exact .register _ _
  case lb | lbu => exact effect_loadDelayed h
  case lwl | lwr => exact effect_loadMerged h
  case lh | lhu =>
    dsimp only [exec, execLh, execLhu] at h
    split at h
    · obtain rfl := raise_next.1 h; exact .trap _
    · exact effect_loadDelayed h
  case lw =>
    dsimp only [exec, execLw] at h
    split at h
    · obtain rfl := raise_next.1 h; exact .trap _
    · split at h
      · obtain rfl := Host.Outcome.next.inj h; exact .nothing
      · exact effect_loadDelayed h
  case sb =>
    dsimp only [exec, execSb] at h
    split at h
    · obtain rfl := Host.Outcome.next.inj h; exact .nothing
    · exact effect_storeAt h
  case swl | swr =>
    dsimp only [exec, execSwl, execSwr] at h
    split at h
    · obtain rfl := Host.Outcome.next.inj h; exact .nothing
    · exact effect_storeMerged h
  case sh | sw =>
    dsimp only [exec, execSh, execSw] at h
    split at h
    · obtain rfl := raise_next.1 h; exact .trap _
    · split at h
      · obtain rfl := Host.Outcome.next.inj h; exact .nothing
      · exact effect_storeAt h

/-- Every next state of step 5, reserved words included. -/
theorem executeWord_effect {ins : Word} {s t : State} (h : executeWord ins s = .next t) :
    ∃ i, Effect i s t := by
  unfold executeWord at h
  split at h
  · exact ⟨_, exec_effect h⟩
  · obtain rfl := raise_next.1 h
    exact ⟨.rfe, .trap _⟩

/-! ## Where an instruction stops -/

/-- A fault is a host fault, and its record of device accesses is the state's, with at most one fetch added. -/
theorem exec_fault {i : Instr} {s : State} {f : Fault} (h : exec i s = .fault f) :
    ∃ r hist, f = .hostFault r hist ∧ (hist = s.devHistory ∨ ∃ e, hist = s.devHistory ++ [e]) := by
  have fetch {a : Word} {w : Width} (hf : busFetch a w s = .error f) :
      ∃ r hist, f = .hostFault r hist ∧ (hist = s.devHistory ∨ ∃ e, hist = s.devHistory ++ [e]) := by
    obtain ⟨r, -, rfl⟩ := busFetch_error_iff.1 hf
    exact ⟨r, _, rfl, .inl rfl⟩
  have store {a : Word} {w : Width} {v : Word} (hf : busStore a w v s = .error f) :
      ∃ r hist, f = .hostFault r hist ∧ (hist = s.devHistory ∨ ∃ e, hist = s.devHistory ++ [e]) := by
    obtain ⟨r, -, rfl⟩ := busStore_error_iff.1 hf
    exact ⟨r, _, rfl, .inl rfl⟩
  have merged {a : Word} {m : Nat → Word → Word → Word} {v : Word} (hf : storeMerged a m v s = .fault f) :
      ∃ r hist, f = .hostFault r hist ∧ (hist = s.devHistory ∨ ∃ e, hist = s.devHistory ++ [e]) := by
    obtain hf | ⟨x, u, hu, hf⟩ := storeMerged_fault.1 hf
    · exact fetch hf
    · obtain ⟨r, -, rfl⟩ := busStore_error_iff.1 hf
      obtain rfl | ⟨b, off, rfl⟩ := busFetch_state hu
      · exact ⟨r, _, rfl, .inl rfl⟩
      · exact ⟨r, _, rfl, .inr ⟨_, rfl⟩⟩
  cases i
  case sll | srl | sra | sllv | srlv | srav | addu | subu | and | or | xor | nor | slt | sltu | mfhi | mflo | addiu
      | slti | sltiu | andi | ori | xori | lui => exact absurd h writeReg_fault
  case mult | multu | div | divu => exact absurd h writeHiLo_fault
  case mthi | mtlo | jr | j | jalr | jal | mfc0 | mtc0 | rfe => exact absurd h nofun
  case beq | bne | blez | bgtz | bltz | bgez => exact absurd h branchIf_fault
  case bltzal | bgezal => exact absurd h linkBranchIf_fault
  case syscall | brk | cop1 | cop3 | lwc0 | lwc1 | lwc3 | swc0 | swc1 | swc3 => exact absurd h raise_fault
  case cop2 | lwc2 | swc2 =>
    dsimp only [exec, execCop2, execLwc2, execSwc2, gteWord] at h
    split at h
    · exact ⟨_, _, (Host.Outcome.fault.inj h).symm, .inl rfl⟩
    · exact absurd h raise_fault
  case add | sub | addi =>
    dsimp only [exec, execAdd, execSub, execAddi] at h
    split at h
    · exact absurd h raise_fault
    · exact absurd h writeReg_fault
  case lb | lbu => exact fetch (loadDelayed_fault.1 h)
  case lwl | lwr => exact fetch (loadMerged_fault.1 h)
  case lh | lhu =>
    dsimp only [exec, execLh, execLhu] at h
    split at h
    · exact absurd h raise_fault
    · exact fetch (loadDelayed_fault.1 h)
  case lw =>
    dsimp only [exec, execLw] at h
    split at h
    · exact absurd h raise_fault
    · split at h
      · exact absurd h nofun
      · exact fetch (loadDelayed_fault.1 h)
  case sb =>
    dsimp only [exec, execSb] at h
    split at h
    · exact absurd h nofun
    · exact store (storeAt_fault.1 h)
  case swl | swr =>
    dsimp only [exec, execSwl, execSwr] at h
    split at h
    · exact absurd h nofun
    · exact merged h
  case sh | sw =>
    dsimp only [exec, execSh, execSw] at h
    split at h
    · exact absurd h raise_fault
    · split at h
      · exact absurd h nofun
      · exact store (storeAt_fault.1 h)

end Sys2Proof.Machine
end

