-- ==== Sys2Proof/Laws/PerInstr.lean ====
section
/-! SUPPORT. Statements made per instruction, one lemma per constructor of Instr. -/

namespace Sys2Proof.Laws.TableRow

/-- The instruction's word carries the fixed bits of its row of spec/opcode_table.json, whatever its operands
(30_encoding.md R142). -/
def Statement (i : Instr) : Prop := encode i &&& i.rowMask = i.rowMatch

theorem sll (rt rd : Reg) (shamt : Nat) : Statement (.sll rt rd shamt) := by
  show encodeR 0x00 0 rt rd shamt 0x00 &&& 0xFC00003F = 0x00000000
  rw [and_specialMask, encodeR_opcode, encodeR_funct]
  rfl

theorem srl (rt rd : Reg) (shamt : Nat) : Statement (.srl rt rd shamt) := by
  show encodeR 0x00 0 rt rd shamt 0x02 &&& 0xFC00003F = 0x00000002
  rw [and_specialMask, encodeR_opcode, encodeR_funct]
  rfl

theorem sra (rt rd : Reg) (shamt : Nat) : Statement (.sra rt rd shamt) := by
  show encodeR 0x00 0 rt rd shamt 0x03 &&& 0xFC00003F = 0x00000003
  rw [and_specialMask, encodeR_opcode, encodeR_funct]
  rfl

theorem sllv (rs rt rd : Reg) : Statement (.sllv rs rt rd) := by
  show encodeR 0x00 rs rt rd 0 0x04 &&& 0xFC00003F = 0x00000004
  rw [and_specialMask, encodeR_opcode, encodeR_funct]
  rfl

theorem srlv (rs rt rd : Reg) : Statement (.srlv rs rt rd) := by
  show encodeR 0x00 rs rt rd 0 0x06 &&& 0xFC00003F = 0x00000006
  rw [and_specialMask, encodeR_opcode, encodeR_funct]
  rfl

theorem srav (rs rt rd : Reg) : Statement (.srav rs rt rd) := by
  show encodeR 0x00 rs rt rd 0 0x07 &&& 0xFC00003F = 0x00000007
  rw [and_specialMask, encodeR_opcode, encodeR_funct]
  rfl

theorem jr (rs : Reg) : Statement (.jr rs) := by
  show encodeR 0x00 rs 0 0 0 0x08 &&& 0xFC00003F = 0x00000008
  rw [and_specialMask, encodeR_opcode, encodeR_funct]
  rfl

theorem jalr (rs rd : Reg) : Statement (.jalr rs rd) := by
  show encodeR 0x00 rs 0 rd 0 0x09 &&& 0xFC00003F = 0x00000009
  rw [and_specialMask, encodeR_opcode, encodeR_funct]
  rfl

theorem syscall (code : BitVec 20) : Statement (.syscall code) := by
  show encodeCode 0x00 code 0x0C &&& 0xFC00003F = 0x0000000C
  rw [and_specialMask, encodeCode_opcode, encodeCode_funct]
  rfl

theorem brk (code : BitVec 20) : Statement (.brk code) := by
  show encodeCode 0x00 code 0x0D &&& 0xFC00003F = 0x0000000D
  rw [and_specialMask, encodeCode_opcode, encodeCode_funct]
  rfl

theorem mfhi (rd : Reg) : Statement (.mfhi rd) := by
  show encodeR 0x00 0 0 rd 0 0x10 &&& 0xFC00003F = 0x00000010
  rw [and_specialMask, encodeR_opcode, encodeR_funct]
  rfl

theorem mthi (rs : Reg) : Statement (.mthi rs) := by
  show encodeR 0x00 rs 0 0 0 0x11 &&& 0xFC00003F = 0x00000011
  rw [and_specialMask, encodeR_opcode, encodeR_funct]
  rfl

theorem mflo (rd : Reg) : Statement (.mflo rd) := by
  show encodeR 0x00 0 0 rd 0 0x12 &&& 0xFC00003F = 0x00000012
  rw [and_specialMask, encodeR_opcode, encodeR_funct]
  rfl

theorem mtlo (rs : Reg) : Statement (.mtlo rs) := by
  show encodeR 0x00 rs 0 0 0 0x13 &&& 0xFC00003F = 0x00000013
  rw [and_specialMask, encodeR_opcode, encodeR_funct]
  rfl

theorem mult (rs rt : Reg) : Statement (.mult rs rt) := by
  show encodeR 0x00 rs rt 0 0 0x18 &&& 0xFC00003F = 0x00000018
  rw [and_specialMask, encodeR_opcode, encodeR_funct]
  rfl

theorem multu (rs rt : Reg) : Statement (.multu rs rt) := by
  show encodeR 0x00 rs rt 0 0 0x19 &&& 0xFC00003F = 0x00000019
  rw [and_specialMask, encodeR_opcode, encodeR_funct]
  rfl

theorem div (rs rt : Reg) : Statement (.div rs rt) := by
  show encodeR 0x00 rs rt 0 0 0x1A &&& 0xFC00003F = 0x0000001A
  rw [and_specialMask, encodeR_opcode, encodeR_funct]
  rfl

theorem divu (rs rt : Reg) : Statement (.divu rs rt) := by
  show encodeR 0x00 rs rt 0 0 0x1B &&& 0xFC00003F = 0x0000001B
  rw [and_specialMask, encodeR_opcode, encodeR_funct]
  rfl

theorem add (rs rt rd : Reg) : Statement (.add rs rt rd) := by
  show encodeR 0x00 rs rt rd 0 0x20 &&& 0xFC00003F = 0x00000020
  rw [and_specialMask, encodeR_opcode, encodeR_funct]
  rfl

theorem addu (rs rt rd : Reg) : Statement (.addu rs rt rd) := by
  show encodeR 0x00 rs rt rd 0 0x21 &&& 0xFC00003F = 0x00000021
  rw [and_specialMask, encodeR_opcode, encodeR_funct]
  rfl

theorem sub (rs rt rd : Reg) : Statement (.sub rs rt rd) := by
  show encodeR 0x00 rs rt rd 0 0x22 &&& 0xFC00003F = 0x00000022
  rw [and_specialMask, encodeR_opcode, encodeR_funct]
  rfl

theorem subu (rs rt rd : Reg) : Statement (.subu rs rt rd) := by
  show encodeR 0x00 rs rt rd 0 0x23 &&& 0xFC00003F = 0x00000023
  rw [and_specialMask, encodeR_opcode, encodeR_funct]
  rfl

theorem and (rs rt rd : Reg) : Statement (.and rs rt rd) := by
  show encodeR 0x00 rs rt rd 0 0x24 &&& 0xFC00003F = 0x00000024
  rw [and_specialMask, encodeR_opcode, encodeR_funct]
  rfl

theorem or (rs rt rd : Reg) : Statement (.or rs rt rd) := by
  show encodeR 0x00 rs rt rd 0 0x25 &&& 0xFC00003F = 0x00000025
  rw [and_specialMask, encodeR_opcode, encodeR_funct]
  rfl

theorem xor (rs rt rd : Reg) : Statement (.xor rs rt rd) := by
  show encodeR 0x00 rs rt rd 0 0x26 &&& 0xFC00003F = 0x00000026
  rw [and_specialMask, encodeR_opcode, encodeR_funct]
  rfl

theorem nor (rs rt rd : Reg) : Statement (.nor rs rt rd) := by
  show encodeR 0x00 rs rt rd 0 0x27 &&& 0xFC00003F = 0x00000027
  rw [and_specialMask, encodeR_opcode, encodeR_funct]
  rfl

theorem slt (rs rt rd : Reg) : Statement (.slt rs rt rd) := by
  show encodeR 0x00 rs rt rd 0 0x2A &&& 0xFC00003F = 0x0000002A
  rw [and_specialMask, encodeR_opcode, encodeR_funct]
  rfl

theorem sltu (rs rt rd : Reg) : Statement (.sltu rs rt rd) := by
  show encodeR 0x00 rs rt rd 0 0x2B &&& 0xFC00003F = 0x0000002B
  rw [and_specialMask, encodeR_opcode, encodeR_funct]
  rfl

theorem bltz (rs : Reg) (imm16 : BitVec 16) : Statement (.bltz rs imm16) := by
  show encodeI 0x01 rs 0x00 imm16 &&& 0xFC1F0000 = 0x04000000
  rw [and_regimmMask, encodeI_opcode, encodeI_rtBits]
  rfl

theorem bgez (rs : Reg) (imm16 : BitVec 16) : Statement (.bgez rs imm16) := by
  show encodeI 0x01 rs 0x01 imm16 &&& 0xFC1F0000 = 0x04010000
  rw [and_regimmMask, encodeI_opcode, encodeI_rtBits]
  rfl

theorem bltzal (rs : Reg) (imm16 : BitVec 16) : Statement (.bltzal rs imm16) := by
  show encodeI 0x01 rs 0x10 imm16 &&& 0xFC1F0000 = 0x04100000
  rw [and_regimmMask, encodeI_opcode, encodeI_rtBits]
  rfl

theorem bgezal (rs : Reg) (imm16 : BitVec 16) : Statement (.bgezal rs imm16) := by
  show encodeI 0x01 rs 0x11 imm16 &&& 0xFC1F0000 = 0x04110000
  rw [and_regimmMask, encodeI_opcode, encodeI_rtBits]
  rfl

theorem j (imm26 : BitVec 26) : Statement (.j imm26) := by
  show encodeJ 0x02 imm26 &&& 0xFC000000 = 0x08000000
  rw [and_opcodeMask, encodeJ_opcode]
  rfl

theorem jal (imm26 : BitVec 26) : Statement (.jal imm26) := by
  show encodeJ 0x03 imm26 &&& 0xFC000000 = 0x0C000000
  rw [and_opcodeMask, encodeJ_opcode]
  rfl

theorem beq (rs rt : Reg) (imm16 : BitVec 16) : Statement (.beq rs rt imm16) := by
  show encodeI 0x04 rs rt imm16 &&& 0xFC000000 = 0x10000000
  rw [and_opcodeMask, encodeI_opcode]
  rfl

theorem bne (rs rt : Reg) (imm16 : BitVec 16) : Statement (.bne rs rt imm16) := by
  show encodeI 0x05 rs rt imm16 &&& 0xFC000000 = 0x14000000
  rw [and_opcodeMask, encodeI_opcode]
  rfl

theorem blez (rs : Reg) (imm16 : BitVec 16) : Statement (.blez rs imm16) := by
  show encodeI 0x06 rs 0 imm16 &&& 0xFC000000 = 0x18000000
  rw [and_opcodeMask, encodeI_opcode]
  rfl

theorem bgtz (rs : Reg) (imm16 : BitVec 16) : Statement (.bgtz rs imm16) := by
  show encodeI 0x07 rs 0 imm16 &&& 0xFC000000 = 0x1C000000
  rw [and_opcodeMask, encodeI_opcode]
  rfl

theorem addi (rs rt : Reg) (imm16 : BitVec 16) : Statement (.addi rs rt imm16) := by
  show encodeI 0x08 rs rt imm16 &&& 0xFC000000 = 0x20000000
  rw [and_opcodeMask, encodeI_opcode]
  rfl

theorem addiu (rs rt : Reg) (imm16 : BitVec 16) : Statement (.addiu rs rt imm16) := by
  show encodeI 0x09 rs rt imm16 &&& 0xFC000000 = 0x24000000
  rw [and_opcodeMask, encodeI_opcode]
  rfl

theorem slti (rs rt : Reg) (imm16 : BitVec 16) : Statement (.slti rs rt imm16) := by
  show encodeI 0x0A rs rt imm16 &&& 0xFC000000 = 0x28000000
  rw [and_opcodeMask, encodeI_opcode]
  rfl

theorem sltiu (rs rt : Reg) (imm16 : BitVec 16) : Statement (.sltiu rs rt imm16) := by
  show encodeI 0x0B rs rt imm16 &&& 0xFC000000 = 0x2C000000
  rw [and_opcodeMask, encodeI_opcode]
  rfl

theorem andi (rs rt : Reg) (imm16 : BitVec 16) : Statement (.andi rs rt imm16) := by
  show encodeI 0x0C rs rt imm16 &&& 0xFC000000 = 0x30000000
  rw [and_opcodeMask, encodeI_opcode]
  rfl

theorem ori (rs rt : Reg) (imm16 : BitVec 16) : Statement (.ori rs rt imm16) := by
  show encodeI 0x0D rs rt imm16 &&& 0xFC000000 = 0x34000000
  rw [and_opcodeMask, encodeI_opcode]
  rfl

theorem xori (rs rt : Reg) (imm16 : BitVec 16) : Statement (.xori rs rt imm16) := by
  show encodeI 0x0E rs rt imm16 &&& 0xFC000000 = 0x38000000
  rw [and_opcodeMask, encodeI_opcode]
  rfl

theorem lui (rt : Reg) (imm16 : BitVec 16) : Statement (.lui rt imm16) := by
  show encodeI 0x0F 0 rt imm16 &&& 0xFC000000 = 0x3C000000
  rw [and_opcodeMask, encodeI_opcode]
  rfl

theorem mfc0 (rt rd : Reg) : Statement (.mfc0 rt rd) := by
  show encodeR 0x10 0x00 rt rd 0 0 &&& 0xFFE00000 = 0x40000000
  rw [and_cop0Mask, encodeR_opcode, encodeR_rsBits]
  rfl

theorem mtc0 (rt rd : Reg) : Statement (.mtc0 rt rd) := by
  show encodeR 0x10 0x04 rt rd 0 0 &&& 0xFFE00000 = 0x40800000
  rw [and_cop0Mask, encodeR_opcode, encodeR_rsBits]
  rfl

theorem rfe : Statement .rfe := by
  show encodeR 0x10 0x10 0 0 0 0x10 &&& 0xFFE0003F = 0x42000010
  rw [and_rfeMask, encodeR_opcode, encodeR_rsBits, encodeR_funct]
  rfl

theorem lb (rs rt : Reg) (imm16 : BitVec 16) : Statement (.lb rs rt imm16) := by
  show encodeI 0x20 rs rt imm16 &&& 0xFC000000 = 0x80000000
  rw [and_opcodeMask, encodeI_opcode]
  rfl

theorem lh (rs rt : Reg) (imm16 : BitVec 16) : Statement (.lh rs rt imm16) := by
  show encodeI 0x21 rs rt imm16 &&& 0xFC000000 = 0x84000000
  rw [and_opcodeMask, encodeI_opcode]
  rfl

theorem lwl (rs rt : Reg) (imm16 : BitVec 16) : Statement (.lwl rs rt imm16) := by
  show encodeI 0x22 rs rt imm16 &&& 0xFC000000 = 0x88000000
  rw [and_opcodeMask, encodeI_opcode]
  rfl

theorem lw (rs rt : Reg) (imm16 : BitVec 16) : Statement (.lw rs rt imm16) := by
  show encodeI 0x23 rs rt imm16 &&& 0xFC000000 = 0x8C000000
  rw [and_opcodeMask, encodeI_opcode]
  rfl

theorem lbu (rs rt : Reg) (imm16 : BitVec 16) : Statement (.lbu rs rt imm16) := by
  show encodeI 0x24 rs rt imm16 &&& 0xFC000000 = 0x90000000
  rw [and_opcodeMask, encodeI_opcode]
  rfl

theorem lhu (rs rt : Reg) (imm16 : BitVec 16) : Statement (.lhu rs rt imm16) := by
  show encodeI 0x25 rs rt imm16 &&& 0xFC000000 = 0x94000000
  rw [and_opcodeMask, encodeI_opcode]
  rfl

theorem lwr (rs rt : Reg) (imm16 : BitVec 16) : Statement (.lwr rs rt imm16) := by
  show encodeI 0x26 rs rt imm16 &&& 0xFC000000 = 0x98000000
  rw [and_opcodeMask, encodeI_opcode]
  rfl

theorem sb (rs rt : Reg) (imm16 : BitVec 16) : Statement (.sb rs rt imm16) := by
  show encodeI 0x28 rs rt imm16 &&& 0xFC000000 = 0xA0000000
  rw [and_opcodeMask, encodeI_opcode]
  rfl

theorem sh (rs rt : Reg) (imm16 : BitVec 16) : Statement (.sh rs rt imm16) := by
  show encodeI 0x29 rs rt imm16 &&& 0xFC000000 = 0xA4000000
  rw [and_opcodeMask, encodeI_opcode]
  rfl

theorem swl (rs rt : Reg) (imm16 : BitVec 16) : Statement (.swl rs rt imm16) := by
  show encodeI 0x2A rs rt imm16 &&& 0xFC000000 = 0xA8000000
  rw [and_opcodeMask, encodeI_opcode]
  rfl

theorem sw (rs rt : Reg) (imm16 : BitVec 16) : Statement (.sw rs rt imm16) := by
  show encodeI 0x2B rs rt imm16 &&& 0xFC000000 = 0xAC000000
  rw [and_opcodeMask, encodeI_opcode]
  rfl

theorem swr (rs rt : Reg) (imm16 : BitVec 16) : Statement (.swr rs rt imm16) := by
  show encodeI 0x2E rs rt imm16 &&& 0xFC000000 = 0xB8000000
  rw [and_opcodeMask, encodeI_opcode]
  rfl

theorem cop1 (copFields : BitVec 26) : Statement (.cop1 copFields) := by
  show encodeJ 0x11 copFields &&& 0xFC000000 = 0x44000000
  rw [and_opcodeMask, encodeJ_opcode]
  rfl

theorem cop3 (copFields : BitVec 26) : Statement (.cop3 copFields) := by
  show encodeJ 0x13 copFields &&& 0xFC000000 = 0x4C000000
  rw [and_opcodeMask, encodeJ_opcode]
  rfl

theorem lwc0 (copFields : BitVec 26) : Statement (.lwc0 copFields) := by
  show encodeJ 0x30 copFields &&& 0xFC000000 = 0xC0000000
  rw [and_opcodeMask, encodeJ_opcode]
  rfl

theorem lwc1 (copFields : BitVec 26) : Statement (.lwc1 copFields) := by
  show encodeJ 0x31 copFields &&& 0xFC000000 = 0xC4000000
  rw [and_opcodeMask, encodeJ_opcode]
  rfl

theorem lwc3 (copFields : BitVec 26) : Statement (.lwc3 copFields) := by
  show encodeJ 0x33 copFields &&& 0xFC000000 = 0xCC000000
  rw [and_opcodeMask, encodeJ_opcode]
  rfl

theorem swc0 (copFields : BitVec 26) : Statement (.swc0 copFields) := by
  show encodeJ 0x38 copFields &&& 0xFC000000 = 0xE0000000
  rw [and_opcodeMask, encodeJ_opcode]
  rfl

theorem swc1 (copFields : BitVec 26) : Statement (.swc1 copFields) := by
  show encodeJ 0x39 copFields &&& 0xFC000000 = 0xE4000000
  rw [and_opcodeMask, encodeJ_opcode]
  rfl

theorem swc3 (copFields : BitVec 26) : Statement (.swc3 copFields) := by
  show encodeJ 0x3B copFields &&& 0xFC000000 = 0xEC000000
  rw [and_opcodeMask, encodeJ_opcode]
  rfl

theorem cop2 (copFields : BitVec 26) : Statement (.cop2 copFields) := by
  show encodeJ 0x12 copFields &&& 0xFC000000 = 0x48000000
  rw [and_opcodeMask, encodeJ_opcode]
  rfl

theorem lwc2 (copFields : BitVec 26) : Statement (.lwc2 copFields) := by
  show encodeJ 0x32 copFields &&& 0xFC000000 = 0xC8000000
  rw [and_opcodeMask, encodeJ_opcode]
  rfl

theorem swc2 (copFields : BitVec 26) : Statement (.swc2 copFields) := by
  show encodeJ 0x3A copFields &&& 0xFC000000 = 0xE8000000
  rw [and_opcodeMask, encodeJ_opcode]
  rfl

end Sys2Proof.Laws.TableRow
end

