-- ==== Sys2Proof/Tests/Slice0.lean ====
section
/-! SUPPORT. The model's own tests. Every expected value is the spec's: the encoding tables of 30_encoding.md, the
vectors of 95_test_vectors.md (named in each docstring), or hand calculation from a cited rule. Below them, a witness
for the hypotheses of every obligation that has some. -/

namespace Sys2Proof.Tests

open Sys2Proof.Machine Sys2Proof.Claims

set_option maxRecDepth 8000

/-! ## Small states -/

/-- A bank of registers with these values, the rest 0. -/
def bank (rs : List (Reg × Word)) : RegFile := rs.foldl (fun f p => f.set p.1.val p.2) (Vector.replicate 32 0)

/-- Words in memory from storage address `a` on. -/
def place (a : Nat) : List Word → Memory → Memory
  | [], m => m
  | w :: rest, m => place (a + 4) rest (m.writeLE a w .word)

/-- A running CPU with these registers, `w` at 0x80001000 where it fetches, and the two words of the load and store
vectors at 0x100 (95_test_vectors.md section 1). -/
def at1000 (w : Word) (rs : List (Reg × Word)) : State :=
  { State.reset with
    runState := .running
    pc := 0x80001000
    npc := 0x80001004
    inRegs := bank rs
    outRegs := bank rs
    mem := place 0x100 [0x44332211, 0x88776655] (place 0x1000 [w] []) }

/-- The state after one tick. -/
def ticked (s : State) : State :=
  match step s with
  | .next t => t
  | .fault _ => s
  | .refused _ => s

/-! ## WellFormed: an ill-formed term of each check is refused -/

theorem test_wf_sll_shamt : Instr.wf (.sll 1 2 32) = false := by decide
theorem test_wf_srl_shamt : Instr.wf (.srl 1 2 32) = false := by decide
theorem test_wf_sra_shamt : Instr.wf (.sra 1 2 33) = false := by decide
theorem test_wf_largest_shamt : Instr.wf (.sll 1 2 31) = true := by decide

/-! ## Decoding: words written out from 30_encoding.md R131 to R140, field by field -/

theorem test_decode_shifts :
    decodeWord 0b000000_00000_01010_00101_11011_000000 = .ok (.sll 10 5 27) ∧
    decodeWord 0b000000_00000_01010_00101_11011_000010 = .ok (.srl 10 5 27) ∧
    decodeWord 0b000000_00000_01010_00101_11011_000011 = .ok (.sra 10 5 27) ∧
    decodeWord 0b000000_10001_01010_00101_00000_000100 = .ok (.sllv 17 10 5) ∧
    decodeWord 0b000000_10001_01010_00101_00000_000110 = .ok (.srlv 17 10 5) ∧
    decodeWord 0b000000_10001_01010_00101_00000_000111 = .ok (.srav 17 10 5) := by decide

theorem test_decode_register_jumps_and_traps :
    decodeWord 0b000000_10001_00000_00000_00000_001000 = .ok (.jr 17) ∧
    decodeWord 0b000000_10001_00000_00101_00000_001001 = .ok (.jalr 17 5) ∧
    decodeWord 0b000000_10000001001000110100_001100 = .ok (.syscall 0x81234) ∧
    decodeWord 0b000000_10000001001000110100_001101 = .ok (.brk 0x81234) := by decide

theorem test_decode_multiply_divide :
    decodeWord 0b000000_00000_00000_00101_00000_010000 = .ok (.mfhi 5) ∧
    decodeWord 0b000000_10001_00000_00000_00000_010001 = .ok (.mthi 17) ∧
    decodeWord 0b000000_00000_00000_00101_00000_010010 = .ok (.mflo 5) ∧
    decodeWord 0b000000_10001_00000_00000_00000_010011 = .ok (.mtlo 17) ∧
    decodeWord 0b000000_10001_01010_00000_00000_011000 = .ok (.mult 17 10) ∧
    decodeWord 0b000000_10001_01010_00000_00000_011001 = .ok (.multu 17 10) ∧
    decodeWord 0b000000_10001_01010_00000_00000_011010 = .ok (.div 17 10) ∧
    decodeWord 0b000000_10001_01010_00000_00000_011011 = .ok (.divu 17 10) := by decide

theorem test_decode_register_alu :
    decodeWord 0b000000_10001_01010_00101_00000_100000 = .ok (.add 17 10 5) ∧
    decodeWord 0b000000_10001_01010_00101_00000_100001 = .ok (.addu 17 10 5) ∧
    decodeWord 0b000000_10001_01010_00101_00000_100010 = .ok (.sub 17 10 5) ∧
    decodeWord 0b000000_10001_01010_00101_00000_100011 = .ok (.subu 17 10 5) ∧
    decodeWord 0b000000_10001_01010_00101_00000_100100 = .ok (.and 17 10 5) ∧
    decodeWord 0b000000_10001_01010_00101_00000_100101 = .ok (.or 17 10 5) ∧
    decodeWord 0b000000_10001_01010_00101_00000_100110 = .ok (.xor 17 10 5) ∧
    decodeWord 0b000000_10001_01010_00101_00000_100111 = .ok (.nor 17 10 5) ∧
    decodeWord 0b000000_10001_01010_00101_00000_101010 = .ok (.slt 17 10 5) ∧
    decodeWord 0b000000_10001_01010_00101_00000_101011 = .ok (.sltu 17 10 5) := by decide

theorem test_decode_branches :
    decodeWord 0b000001_10001_00000_1000000000000011 = .ok (.bltz 17 0x8003) ∧
    decodeWord 0b000001_10001_00001_1000000000000011 = .ok (.bgez 17 0x8003) ∧
    decodeWord 0b000001_10001_10000_1000000000000011 = .ok (.bltzal 17 0x8003) ∧
    decodeWord 0b000001_10001_10001_1000000000000011 = .ok (.bgezal 17 0x8003) ∧
    decodeWord 0b000100_10001_01010_1000000000000011 = .ok (.beq 17 10 0x8003) ∧
    decodeWord 0b000101_10001_01010_1000000000000011 = .ok (.bne 17 10 0x8003) ∧
    decodeWord 0b000110_10001_00000_1000000000000011 = .ok (.blez 17 0x8003) ∧
    decodeWord 0b000111_10001_00000_1000000000000011 = .ok (.bgtz 17 0x8003) := by decide

theorem test_decode_jumps :
    decodeWord 0b000010_10010000000000000000000101 = .ok (.j 0x2400005) ∧
    decodeWord 0b000011_10010000000000000000000101 = .ok (.jal 0x2400005) := by decide

theorem test_decode_immediate_alu :
    decodeWord 0b001000_10001_01010_1000000000000011 = .ok (.addi 17 10 0x8003) ∧
    decodeWord 0b001001_10001_01010_1000000000000011 = .ok (.addiu 17 10 0x8003) ∧
    decodeWord 0b001010_10001_01010_1000000000000011 = .ok (.slti 17 10 0x8003) ∧
    decodeWord 0b001011_10001_01010_1000000000000011 = .ok (.sltiu 17 10 0x8003) ∧
    decodeWord 0b001100_10001_01010_1000000000000011 = .ok (.andi 17 10 0x8003) ∧
    decodeWord 0b001101_10001_01010_1000000000000011 = .ok (.ori 17 10 0x8003) ∧
    decodeWord 0b001110_10001_01010_1000000000000011 = .ok (.xori 17 10 0x8003) ∧
    decodeWord 0b001111_00000_01010_1000000000000011 = .ok (.lui 10 0x8003) := by decide

theorem test_decode_cop0 :
    decodeWord 0b010000_00000_01010_00101_00000_000000 = .ok (.mfc0 10 5) ∧
    decodeWord 0b010000_00100_01010_00101_00000_000000 = .ok (.mtc0 10 5) ∧
    decodeWord 0b010000_10000_00000_00000_00000_010000 = .ok .rfe := by decide

theorem test_decode_loads :
    decodeWord 0b100000_10001_01010_1000000000000011 = .ok (.lb 17 10 0x8003) ∧
    decodeWord 0b100001_10001_01010_1000000000000011 = .ok (.lh 17 10 0x8003) ∧
    decodeWord 0b100010_10001_01010_1000000000000011 = .ok (.lwl 17 10 0x8003) ∧
    decodeWord 0b100011_10001_01010_1000000000000011 = .ok (.lw 17 10 0x8003) ∧
    decodeWord 0b100100_10001_01010_1000000000000011 = .ok (.lbu 17 10 0x8003) ∧
    decodeWord 0b100101_10001_01010_1000000000000011 = .ok (.lhu 17 10 0x8003) ∧
    decodeWord 0b100110_10001_01010_1000000000000011 = .ok (.lwr 17 10 0x8003) := by decide

theorem test_decode_stores :
    decodeWord 0b101000_10001_01010_1000000000000011 = .ok (.sb 17 10 0x8003) ∧
    decodeWord 0b101001_10001_01010_1000000000000011 = .ok (.sh 17 10 0x8003) ∧
    decodeWord 0b101010_10001_01010_1000000000000011 = .ok (.swl 17 10 0x8003) ∧
    decodeWord 0b101011_10001_01010_1000000000000011 = .ok (.sw 17 10 0x8003) ∧
    decodeWord 0b101110_10001_01010_1000000000000011 = .ok (.swr 17 10 0x8003) := by decide

theorem test_decode_coprocessors_one_and_three :
    decodeWord 0b010001_10010000000000000000000101 = .ok (.cop1 0x2400005) ∧
    decodeWord 0b010011_10010000000000000000000101 = .ok (.cop3 0x2400005) ∧
    decodeWord 0b110000_10010000000000000000000101 = .ok (.lwc0 0x2400005) ∧
    decodeWord 0b110001_10010000000000000000000101 = .ok (.lwc1 0x2400005) ∧
    decodeWord 0b110011_10010000000000000000000101 = .ok (.lwc3 0x2400005) ∧
    decodeWord 0b111000_10010000000000000000000101 = .ok (.swc0 0x2400005) ∧
    decodeWord 0b111001_10010000000000000000000101 = .ok (.swc1 0x2400005) ∧
    decodeWord 0b111011_10010000000000000000000101 = .ok (.swc3 0x2400005) := by decide

theorem test_decode_gte :
    decodeWord 0b010010_10010000000000000000000101 = .ok (.cop2 0x2400005) ∧
    decodeWord 0b110010_10010000000000000000000101 = .ok (.lwc2 0x2400005) ∧
    decodeWord 0b111010_10010000000000000000000101 = .ok (.swc2 0x2400005) := by decide

/-- Unused fields are ignored (30_encoding.md R142): all of them set. -/
theorem test_decode_ignores_unused_fields :
    decodeWord 0b000000_11111_01010_00101_11011_000000 = .ok (.sll 10 5 27) ∧
    decodeWord 0b000000_10001_11111_11111_11111_001000 = .ok (.jr 17) ∧
    decodeWord 0b000000_10001_01010_11111_11111_011000 = .ok (.mult 17 10) ∧
    decodeWord 0b000110_10001_11111_1000000000000011 = .ok (.blez 17 0x8003) ∧
    decodeWord 0b001111_11111_01010_1000000000000011 = .ok (.lui 10 0x8003) ∧
    decodeWord 0b010000_00100_01010_00101_11111_111111 = .ok (.mtc0 10 5) ∧
    decodeWord 0b010000_10000_11111_11111_11111_010000 = .ok .rfe := by decide

/-- Reserved words (95_test_vectors.md X11 to X14; 45_system.md R357). -/
theorem test_decode_reserved :
    decodeWord 0xFC000000 = .error (.reservedOpcode 0x3F) ∧ decodeWord 0x00000001 = .error (.reservedSpecial 1) ∧
    decodeWord 0x04020001 = .error (.reservedRegimm 2) ∧ decodeWord 0x40400000 = .error (.reservedCop0 2 0) := by decide

/-- Bytes in address order, least significant first; fewer than four are no instruction (30_encoding.md R130). -/
theorem test_decode_bytes :
    decode [0x20, 0x50, 0x09, 0x01, 0xAA] = .ok (.add 8 9 10, [0xAA]) ∧ decode [0x20, 0x50, 0x09] = .error .truncated ∧
    decodeTableWord 32 0x01095020 = some (.add 8 9 10) ∧ decodeTableWord 32 0xFC000000 = none := by decide

/-! ## One tick of each instruction -/

/-- 95_test_vectors.md A1. -/
theorem test_add : (ticked (at1000 0x01095020 [(8, 0x1), (9, 0x2)])).getReg 10 = 3 := by decide

/-- 95_test_vectors.md A2. -/
theorem test_add_overflow :
    (ticked (at1000 0x01095020 [(8, 0x7FFFFFFF), (9, 0x1), (10, 0xAAAA)])).getReg 10 = 0xAAAA ∧
    (ticked (at1000 0x01095020 [(8, 0x7FFFFFFF), (9, 0x1), (10, 0xAAAA)])).getC0 13 = 0x30 := by decide

/-- 95_test_vectors.md A6. -/
theorem test_addu : (ticked (at1000 0x01095021 [(8, 0x7FFFFFFF), (9, 0x1)])).getReg 10 = 0x80000000 := by decide

/-- 95_test_vectors.md A10. -/
theorem test_sub : (ticked (at1000 0x01095022 [(8, 0xFFFFFFFF), (9, 0x80000000)])).getReg 10 = 0x7FFFFFFF := by decide

/-- 95_test_vectors.md A8. -/
theorem test_sub_overflow :
    (ticked (at1000 0x01095022 [(8, 0x80000000), (9, 0x1)])).getReg 10 = 0 ∧
    (ticked (at1000 0x01095022 [(8, 0x80000000), (9, 0x1)])).getC0 13 = 0x30 := by decide

/-- 95_test_vectors.md A12. -/
theorem test_subu : (ticked (at1000 0x01095023 [(8, 0x0), (9, 0x1)])).getReg 10 = 0xFFFFFFFF := by decide

/-- 95_test_vectors.md A13. -/
theorem test_and : (ticked (at1000 0x01095024 [(8, 0xF0F0F0F0), (9, 0xFF00FF00)])).getReg 10 = 0xF000F000 := by decide

/-- 95_test_vectors.md A14. -/
theorem test_or : (ticked (at1000 0x01095025 [(8, 0xF0F0F0F0), (9, 0xFF00FF00)])).getReg 10 = 0xFFF0FFF0 := by decide

/-- 95_test_vectors.md A15. -/
theorem test_xor : (ticked (at1000 0x01095026 [(8, 0xF0F0F0F0), (9, 0xFF00FF00)])).getReg 10 = 0xFF00FF0 := by decide

/-- 95_test_vectors.md A16. -/
theorem test_nor : (ticked (at1000 0x01095027 [(8, 0xF0F0F0F0), (9, 0xFF00FF00)])).getReg 10 = 0xF000F := by decide

/-- 95_test_vectors.md A17. -/
theorem test_slt : (ticked (at1000 0x0109502A [(8, 0xFFFFFFFF), (9, 0x1)])).getReg 10 = 1 := by decide

/-- 95_test_vectors.md A18. -/
theorem test_sltu : (ticked (at1000 0x0109502B [(8, 0xFFFFFFFF), (9, 0x1)])).getReg 10 = 0 := by decide

/-- 95_test_vectors.md A20. -/
theorem test_sll : (ticked (at1000 0x00085100 [(8, 0x87654321)])).getReg 10 = 0x76543210 := by decide

/-- 95_test_vectors.md A22. -/
theorem test_srl : (ticked (at1000 0x00085102 [(8, 0x87654321)])).getReg 10 = 0x8765432 := by decide

/-- 95_test_vectors.md A24. -/
theorem test_sra : (ticked (at1000 0x000857C3 [(8, 0x80000000)])).getReg 10 = 0xFFFFFFFF := by decide

/-- 95_test_vectors.md A25. -/
theorem test_sllv : (ticked (at1000 0x01285004 [(8, 0x1), (9, 0x21)])).getReg 10 = 2 := by decide

/-- 95_test_vectors.md A26. -/
theorem test_srlv : (ticked (at1000 0x01285006 [(8, 0x80000000), (9, 0x24)])).getReg 10 = 0x8000000 := by decide

/-- 95_test_vectors.md A27. -/
theorem test_srav :
    (ticked (at1000 0x01285007 [(8, 0x80000000), (9, 0xFFFFFFE4)])).getReg 10 = 0xF8000000 := by decide

/-- 95_test_vectors.md A29. -/
theorem test_addi : (ticked (at1000 0x2109FFFF [(8, 0x0)])).getReg 9 = 0xFFFFFFFF := by decide

/-- 95_test_vectors.md A31. -/
theorem test_addi_overflow :
    (ticked (at1000 0x21088000 [(8, 0x80000000)])).getReg 8 = 0x80000000 ∧
    (ticked (at1000 0x21088000 [(8, 0x80000000)])).getC0 13 = 0x30 := by decide

/-- 95_test_vectors.md A32. -/
theorem test_addiu : (ticked (at1000 0x25080001 [(8, 0x7FFFFFFF)])).getReg 8 = 0x80000000 := by decide

/-- 95_test_vectors.md S1. -/
theorem test_addiu_zero_register : (ticked (at1000 0x24000005 [])).getReg 0 = 0 := by decide

/-- 95_test_vectors.md A34. -/
theorem test_slti : (ticked (at1000 0x2909FFFF [(8, 0x0)])).getReg 9 = 0 := by decide

/-- 95_test_vectors.md A35. -/
theorem test_sltiu : (ticked (at1000 0x2D09FFFF [(8, 0xFFFFFFFE)])).getReg 9 = 1 := by decide

/-- 95_test_vectors.md A37. -/
theorem test_andi : (ticked (at1000 0x3109FFFF [(8, 0xFFFFFFFF)])).getReg 9 = 0xFFFF := by decide

/-- 95_test_vectors.md A38. -/
theorem test_ori : (ticked (at1000 0x35098000 [(8, 0x0)])).getReg 9 = 0x8000 := by decide

/-- 95_test_vectors.md A39. -/
theorem test_xori : (ticked (at1000 0x3909FFFF [(8, 0x12345678)])).getReg 9 = 0x1234A987 := by decide

/-- 95_test_vectors.md A40. -/
theorem test_lui : (ticked (at1000 0x3C098001 [(9, 0x1234)])).getReg 9 = 0x80010000 := by decide

/-- 95_test_vectors.md D3. -/
theorem test_mult :
    (ticked (at1000 0x01090018 [(8, 0x12345678), (9, 0x9ABCDEF0)])).hi = 0xF8CC93D6 ∧
    (ticked (at1000 0x01090018 [(8, 0x12345678), (9, 0x9ABCDEF0)])).lo = 0x242D2080 := by decide

/-- 95_test_vectors.md D4a. -/
theorem test_multu :
    (ticked (at1000 0x01090019 [(8, 0x12345678), (9, 0x9ABCDEF0)])).hi = 0xB00EA4E ∧
    (ticked (at1000 0x01090019 [(8, 0x12345678), (9, 0x9ABCDEF0)])).lo = 0x242D2080 := by decide

/-- 95_test_vectors.md D10. -/
theorem test_div :
    (ticked (at1000 0x0109001A [(8, 0xFFFFFFF9), (9, 0x2)])).hi = 0xFFFFFFFF ∧
    (ticked (at1000 0x0109001A [(8, 0xFFFFFFF9), (9, 0x2)])).lo = 0xFFFFFFFD := by decide

/-- 95_test_vectors.md D7. -/
theorem test_div_by_zero :
    (ticked (at1000 0x0109001A [(8, 0xFFFFFFFB), (9, 0x0)])).hi = 0xFFFFFFFB ∧
    (ticked (at1000 0x0109001A [(8, 0xFFFFFFFB), (9, 0x0)])).lo = 1 := by decide

/-- 95_test_vectors.md D15. -/
theorem test_divu :
    (ticked (at1000 0x0109001B [(8, 0x80000000), (9, 0xFFFFFFFF)])).hi = 0x80000000 ∧
    (ticked (at1000 0x0109001B [(8, 0x80000000), (9, 0xFFFFFFFF)])).lo = 0 := by decide

/-- 95_test_vectors.md D14. -/
theorem test_divu_by_zero :
    (ticked (at1000 0x0109001B [(8, 0xFFFFFFFF), (9, 0x0)])).hi = 0xFFFFFFFF ∧
    (ticked (at1000 0x0109001B [(8, 0xFFFFFFFF), (9, 0x0)])).lo = 0xFFFFFFFF := by decide

/-- 42_muldiv.md R266, its example. -/
theorem test_mfhi : (ticked ({ at1000 0x00005010 [] with hi := 0x1234 })).getReg 10 = 0x1234 := by decide

/-- 42_muldiv.md R267; 95_test_vectors.md D16, its second tick. -/
theorem test_mflo : (ticked ({ at1000 0x00005012 [] with hi := 7, lo := 12 })).getReg 10 = 0xC := by decide

/-- 42_muldiv.md R268, its example. -/
theorem test_mthi :
    (ticked (at1000 0x01000011 [(8, 0xDEADBEEF)])).hi = 0xDEADBEEF ∧
    (ticked (at1000 0x01000011 [(8, 0xDEADBEEF)])).lo = 0 := by decide

/-- 42_muldiv.md R269, its example. -/
theorem test_mtlo :
    (ticked (at1000 0x01000013 [(8, 0x5)])).lo = 5 ∧
    (ticked (at1000 0x01000013 [(8, 0x5)])).hi = 0 := by decide

/-- 43_loadstore.md R283: the byte 0x88 at 0x107 is staged; the register is not written yet. -/
theorem test_lb :
    (ticked (at1000 0x80880007 [(4, 0x100), (8, 0xAAAA)])).loadDelayTarget = 8 ∧
    (ticked (at1000 0x80880007 [(4, 0x100), (8, 0xAAAA)])).loadDelayValue = 0xFFFFFF88 ∧
    (ticked (at1000 0x80880007 [(4, 0x100), (8, 0xAAAA)])).getReg 8 = 0xAAAA := by decide

/-- 43_loadstore.md R284: the byte 0x88 at 0x107. -/
theorem test_lbu : (ticked (at1000 0x90880007 [(4, 0x100)])).loadDelayValue = 0x88 := by decide

/-- 43_loadstore.md R285: the halfword 0x8877 at 0x106. -/
theorem test_lh : (ticked (at1000 0x84880006 [(4, 0x100)])).loadDelayValue = 0xFFFF8877 := by decide

/-- 95_test_vectors.md L5. -/
theorem test_lh_misaligned :
    (ticked (at1000 0x84880001 [(4, 0x100), (8, 0x7)])).getReg 8 = 7 ∧
    (ticked (at1000 0x84880001 [(4, 0x100), (8, 0x7)])).getC0 13 = 0x10 ∧
    (ticked (at1000 0x84880001 [(4, 0x100), (8, 0x7)])).getC0 14 = 0x80001000 := by decide

/-- 43_loadstore.md R286: the halfword 0x8877 at 0x106. -/
theorem test_lhu : (ticked (at1000 0x94880006 [(4, 0x100)])).loadDelayValue = 0x8877 := by decide

/-- 95_test_vectors.md L8: a negative offset. -/
theorem test_lw : (ticked (at1000 0x8C88FFFC [(4, 0x108)])).loadDelayValue = 0x88776655 := by decide

/-- 95_test_vectors.md L11. -/
theorem test_lw_misaligned_under_isolate :
    (ticked ({ at1000 0x8C880002 [(4, 0x100), (8, 0x7)] with c0regs := bank [(12, 0x10000)] })).loadDelayTarget = 0 ∧
    (ticked ({ at1000 0x8C880002 [(4, 0x100), (8, 0x7)] with c0regs := bank [(12, 0x10000)] })).getC0 13 = 0x10 ∧
    (ticked ({ at1000 0x8C880002 [(4, 0x100), (8, 0x7)] with c0regs := bank [(12, 0x10000)] })).getC0 12 = 0x10000 := by decide

/-- 95_test_vectors.md L20. -/
theorem test_lwl : (ticked (at1000 0x88880005 [(4, 0x100), (8, 0x1020304)])).getReg 8 = 0x66550304 := by decide

/-- 95_test_vectors.md L24. -/
theorem test_lwr : (ticked (at1000 0x98880001 [(4, 0x100), (8, 0x1020304)])).getReg 8 = 0x1443322 := by decide

/-- 95_test_vectors.md L13. -/
theorem test_sb :
    (ticked (at1000 0xA0880001 [(4, 0x100), (8, 0xAABBCCDD)])).mem.readLE 0x100 .word = 0x4433DD11 := by decide

/-- 95_test_vectors.md L14. -/
theorem test_sh :
    (ticked (at1000 0xA4880002 [(4, 0x100), (8, 0xAABBCCDD)])).mem.readLE 0x100 .word = 0xCCDD2211 := by decide

/-- 95_test_vectors.md L16. -/
theorem test_sw :
    (ticked (at1000 0xAC880000 [(4, 0x100), (8, 0xAABBCCDD)])).mem.readLE 0x100 .word = 0xAABBCCDD ∧
    (ticked (at1000 0xAC880000 [(4, 0x100), (8, 0xAABBCCDD)])).mem.readLE 0x104 .word = 0x88776655 := by decide

/-- 95_test_vectors.md L36. -/
theorem test_sw_unmapped :
    (ticked (at1000 0xAC880000 [(4, 0x200000), (8, 0x1)])).runState = .halted ∧
    (ticked (at1000 0xAC880000 [(4, 0x200000), (8, 0x1)])).haltReason = some (.unmapped 0x200000) ∧
    (ticked (at1000 0xAC880000 [(4, 0x200000), (8, 0x1)])).pc = 0x80001000 := by decide

/-- 95_test_vectors.md L28. -/
theorem test_swl :
    (ticked (at1000 0xA8880005 [(4, 0x100), (8, 0xAABBCCDD)])).mem.readLE 0x104 .word = 0x8877AABB := by decide

/-- 95_test_vectors.md L32. -/
theorem test_swr :
    (ticked (at1000 0xB8880001 [(4, 0x100), (8, 0xAABBCCDD)])).mem.readLE 0x100 .word = 0xBBCCDD11 := by decide

/-- 95_test_vectors.md B1, its first tick. -/
theorem test_beq :
    (ticked (at1000 0x11090003 [(8, 0x1), (9, 0x1)])).pc = 0x80001004 ∧
    (ticked (at1000 0x11090003 [(8, 0x1), (9, 0x1)])).npc = 0x80001010 := by decide

/-- 95_test_vectors.md B3. -/
theorem test_bne : (ticked (at1000 0x1509FFFF [(8, 0x1), (9, 0x2)])).npc = 0x80001000 := by decide

/-- 95_test_vectors.md B4. -/
theorem test_blez : (ticked (at1000 0x19000002 [(8, 0x80000000)])).npc = 0x8000100C := by decide

/-- 95_test_vectors.md B6, not taken. -/
theorem test_bgtz : (ticked (at1000 0x1D000002 [(8, 0x0)])).npc = 0x80001008 := by decide

/-- 95_test_vectors.md B8. -/
theorem test_bltz : (ticked (at1000 0x05000002 [(8, 0xFFFFFFFF)])).npc = 0x8000100C := by decide

/-- 95_test_vectors.md B9. -/
theorem test_bgez : (ticked (at1000 0x05010002 [(8, 0x0)])).npc = 0x8000100C := by decide

/-- 95_test_vectors.md B11, not taken, links anyway. -/
theorem test_bltzal :
    (ticked (at1000 0x05100004 [(8, 0x1)])).npc = 0x80001008 ∧
    (ticked (at1000 0x05100004 [(8, 0x1)])).getReg 31 = 0x80001008 := by decide

/-- 95_test_vectors.md B12. -/
theorem test_bgezal :
    (ticked (at1000 0x05110004 [(8, 0x0)])).npc = 0x80001014 ∧
    (ticked (at1000 0x05110004 [(8, 0x0)])).getReg 31 = 0x80001008 := by decide

/-- 95_test_vectors.md B13. -/
theorem test_j : (ticked (at1000 0x08000100 [])).npc = 0x80000400 := by decide

/-- 44_control.md R331: as 95_test_vectors.md B15, at 0x80001000. -/
theorem test_jal :
    (ticked (at1000 0x0C000100 [])).npc = 0x80000400 ∧
    (ticked (at1000 0x0C000100 [])).getReg 31 = 0x80001008 := by decide

/-- 95_test_vectors.md B16. -/
theorem test_jr :
    (ticked (at1000 0x01000008 [(8, 0x80002000)])).pc = 0x80001004 ∧
    (ticked (at1000 0x01000008 [(8, 0x80002000)])).npc = 0x80002000 := by decide

/-- 95_test_vectors.md B18, rd = rs. -/
theorem test_jalr :
    (ticked (at1000 0x01004009 [(8, 0x80002000)])).npc = 0x80002000 ∧
    (ticked (at1000 0x01004009 [(8, 0x80002000)])).getReg 8 = 0x80001008 := by decide

/-- 95_test_vectors.md X5, at 0x80001000. -/
theorem test_syscall :
    (ticked ({ at1000 0x0000000C [] with c0regs := bank [(12, 0x1)] })).getC0 14 = 0x80001000 ∧
    (ticked ({ at1000 0x0000000C [] with c0regs := bank [(12, 0x1)] })).getC0 13 = 0x20 ∧
    (ticked ({ at1000 0x0000000C [] with c0regs := bank [(12, 0x1)] })).getC0 12 = 4 ∧
    (ticked ({ at1000 0x0000000C [] with c0regs := bank [(12, 0x1)] })).pc = 0x80000080 ∧
    (ticked ({ at1000 0x0000000C [] with c0regs := bank [(12, 0x1)] })).npc = 0x80000084 := by decide

/-- 95_test_vectors.md X7. -/
theorem test_syscall_full_mode_stack :
    (ticked ({ at1000 0x0000000C [] with c0regs := bank [(12, 0x3F)] })).getC0 12 = 0x3C := by decide

/-- 95_test_vectors.md X6. -/
theorem test_break :
    (ticked ({ at1000 0x0000000D [] with c0regs := bank [(12, 0x400000)] })).getC0 13 = 0x24 ∧
    (ticked ({ at1000 0x0000000D [] with c0regs := bank [(12, 0x400000)] })).getC0 12 = 0x400000 ∧
    (ticked ({ at1000 0x0000000D [] with c0regs := bank [(12, 0x400000)] })).pc = 0xBFC00180 := by decide

/-- 45_system.md R352, its example. -/
theorem test_mfc0 :
    (ticked ({ at1000 0x40086000 [] with c0regs := bank [(12, 0x400000)] })).loadDelayTarget = 8 ∧
    (ticked ({ at1000 0x40086000 [] with c0regs := bank [(12, 0x400000)] })).loadDelayValue = 0x400000 ∧
    (ticked ({ at1000 0x40086000 [] with c0regs := bank [(12, 0x400000)] })).getReg 8 = 0 := by decide

/-- 95_test_vectors.md X15, its first tick. -/
theorem test_mtc0 : (ticked (at1000 0x40886000 [(8, 0x1234)])).getC0 12 = 0x1234 := by decide

/-- 95_test_vectors.md X17. -/
theorem test_rfe :
    (ticked ({ at1000 0x42000010 [] with c0regs := bank [(12, 0x400010)] })).getC0 12 = 0x400014 ∧
    (ticked ({ at1000 0x42000010 [] with c0regs := bank [(12, 0x400010)] })).pc = 0x80001004 := by decide

/-- 95_test_vectors.md X8. -/
theorem test_cop1 : (ticked (at1000 0x44000000 [])).getC0 13 = 0x2C := by decide

/-- 45_system.md R355. -/
theorem test_cop3 : (ticked (at1000 0x4C000000 [])).getC0 13 = 0x2C := by decide

/-- 45_system.md R355. -/
theorem test_lwc0 : (ticked (at1000 0xC0000000 [])).getC0 13 = 0x2C := by decide

/-- 45_system.md R355. -/
theorem test_lwc1 : (ticked (at1000 0xC4000000 [])).getC0 13 = 0x2C := by decide

/-- 45_system.md R355. -/
theorem test_lwc3 : (ticked (at1000 0xCC000000 [])).getC0 13 = 0x2C := by decide

/-- 45_system.md R355. -/
theorem test_swc0 : (ticked (at1000 0xE0000000 [])).getC0 13 = 0x2C := by decide

/-- 45_system.md R355. -/
theorem test_swc1 : (ticked (at1000 0xE4000000 [])).getC0 13 = 0x2C := by decide

/-- 45_system.md R355. -/
theorem test_swc3 : (ticked (at1000 0xEC000000 [])).getC0 13 = 0x2C := by decide

/-- 95_test_vectors.md X9. -/
theorem test_cop2 : (ticked (at1000 0x48000000 [])).getC0 13 = 0x2C := by decide

/-- 95_test_vectors.md X10. -/
theorem test_cop2_usable :
    (ticked ({ at1000 0x48000000 [] with c0regs := bank [(12, 0x40000000)] })).runState = .halted ∧
    (ticked ({ at1000 0x48000000 [] with c0regs := bank [(12, 0x40000000)] })).haltReason = some (.unimplemented 0x48000000) ∧
    (ticked ({ at1000 0x48000000 [] with c0regs := bank [(12, 0x40000000)] })).instrExecCnt = 0 := by decide

/-- 45_system.md R356. -/
theorem test_lwc2 : (ticked (at1000 0xC8000000 [])).getC0 13 = 0x2C := by decide

/-- 45_system.md R356. -/
theorem test_swc2 : (ticked (at1000 0xE8000000 [])).getC0 13 = 0x2C := by decide

/-- 95_test_vectors.md X11: a reserved word. -/
theorem test_reserved_word : (ticked (at1000 0xFC000000 [])).getC0 13 = 0x28 := by decide

/-- 40_tick_pipeline.md R172: a misaligned pc. -/
theorem test_misaligned_pc : (ticked { at1000 0 [] with pc := 0x80003002 }).getC0 14 = 0x80002FFE ∧
    (ticked { at1000 0 [] with pc := 0x80003002 }).instrExecCnt = 0 := by decide

/-- 95_test_vectors.md I6: a breakpoint at the address after execution. -/
theorem test_breakpoint : (ticked { at1000 0 [] with breakpoints := [0x80001004] }).runState = .sleeping := by decide

/-- 95_test_vectors.md I2: a tick while sleeping. -/
theorem test_sleeping : ticked State.reset = State.reset := by decide

/-- 95_test_vectors.md I3, I4: the image after init, and one byte too few. -/
theorem test_save_state : State.reset.saveState.length = 416 ∧
    (State.reset.saveState.drop 0x114).take 8 = [0, 0, 0xC0, 0xBF, 4, 0, 0xC0, 0xBF] ∧
    (State.reset.loadState (State.reset.saveState.take 415)).isNone = true := by decide

/-- 95_test_vectors.md T2 to T9. -/
theorem test_translate : translateAddr 0x80001000 = 0x1000 ∧ translateAddr 0xA0001000 = 0x1000 ∧
    translateAddr 0xBFC00000 = 0x1FC00000 ∧ translateAddr 0x9FC00000 = 0x1FC00000 ∧
    translateAddr 0xFFFE0130 = 0xFFFE0130 ∧ translateAddr 0x20001000 = 0x20001000 ∧
    translateAddr 0x9FFFFFFF = 0x1FFFFFFF := by decide

/-- 95_test_vectors.md M9: the range test wraps. -/
theorem test_range_wraps :
    bindingContains { start := 0xFFFFFF00, size := 0x200, device := .memory 0, caps := allCaps } 0x10 = true := by decide

/-- The host's two questions, on one row: the decoder reads it, and it is the first instruction after reset. -/
theorem test_first_instruction : decodeTableWord 32 0x35098000 = some (.ori 8 9 0x8000) ∧
    (ticked (State.reset.withFetchWord 32 0x35098000)).getReg 9 = 0x8000 := by decide

/-! ## Witnesses: for each obligation with hypotheses, a concrete state and operands that meet all of them -/

/-- ADDU $t2, $t0, $t1 about to run. -/
def atAddu : State := at1000 0x01095021 [(8, 1), (9, 2)]

/-- The two register banks of vectors L1 to L35: $a0 = 0x100, $t0 = 0xAABBCCDD. -/
def atMem (w : Word) : State := at1000 w [(4, 0x100), (8, 0xAABBCCDD)]

/-- $a0 = 0x1F801810, in the hardware-register window. -/
def atDevice : State := at1000 0 [(4, 0x1F801810), (8, 0xAABBCCDD)]

/-- The same states with the cache isolated. -/
def isolated (s : State) : State := { s with c0regs := bank [(12, 0x00010000)] }

theorem witness_StepKeepsInvariant : atAddu.Inv ∧ step atAddu = .next (ticked atAddu) := ⟨by decide, rfl⟩

theorem witness_StepRunsDecodedInstruction_notRunning : State.reset.runState ≠ .running := by decide
theorem witness_StepRunsDecodedInstruction_misaligned :
    { atAddu with pc := 0x80001001 }.runState = .running ∧ { atAddu with pc := 0x80001001 }.pc.toNat % 4 ≠ 0 := by decide
theorem witness_StepRunsDecodedInstruction_fetchFault :
    busFetch 0x00200000 .word { atAddu with pc := 0x00200000 }.latchCpc = .error (.hostFault (.unmapped 0x00200000) []) :=
  rfl
theorem witness_StepRunsDecodedInstruction_next : atAddu.runState = .running ∧ atAddu.pc.toNat % 4 = 0 ∧
    busFetch atAddu.pc .word atAddu.latchCpc = .ok (0x01095021, atAddu.latchCpc) ∧
    decodeWord 0x01095021 = .ok (.addu 8 9 10) ∧
    exec (.addu 8 9 10) (atStepFive atAddu.latchCpc) = .next ((atStepFive atAddu.latchCpc).setReg 10 3) :=
  ⟨by decide, by decide, rfl, by decide, rfl⟩
/-- A COP2 word with SR.CU2 = 1 about to run. -/
def atGte : State := { at1000 0x48000000 [] with c0regs := bank [(12, 0x40000000)] }

theorem witness_StepRunsDecodedInstruction_fault : atGte.runState = .running ∧ atGte.pc.toNat % 4 = 0 ∧
    busFetch atGte.pc .word atGte.latchCpc = .ok (0x48000000, atGte.latchCpc) ∧
    decodeWord 0x48000000 = .ok (.cop2 0) ∧
    exec (.cop2 0) (atStepFive atGte.latchCpc) = .fault (.hostFault (.unimplemented 0x48000000) []) :=
  ⟨by decide, by decide, rfl, by decide, rfl⟩
theorem witness_StepRunsDecodedInstruction_reserved :
    busFetch 0x80001000 .word (at1000 0xFC000000 []).latchCpc = .ok (0xFC000000, (at1000 0xFC000000 []).latchCpc) ∧
    decodeWord 0xFC000000 = .error (.reservedOpcode 0x3F) := ⟨rfl, by decide⟩

/-- The first and the last word of RAM, and the reset vector in ROM. -/
theorem witness_FetchReadsFourBytes : Reaches atAddu 0x80000000 .fetch .word ramBinding ∧
    Reaches atAddu 0x001FFFFC .fetch .word ramBinding ∧ Stored ramBinding 0 ∧
    Reaches atAddu 0xBFC00000 .fetch .word biosBinding ∧ Stored biosBinding 0x1FC00000 :=
  ⟨⟨rfl, rfl⟩, ⟨rfl, rfl⟩, .inl rfl, ⟨rfl, rfl⟩, .inr rfl⟩

theorem witness_MisalignedPcTrapsAtStepOne :
    { atAddu with pc := 0x80001003 }.runState = .running ∧ { atAddu with pc := 0x80001003 }.pc.toNat % 4 ≠ 0 := by decide

theorem witness_HostFaultLeavesTickStartState :
    { atAddu with pc := 0x00200000 }.runState = .running ∧
    step { atAddu with pc := 0x00200000 } = .next (ticked { atAddu with pc := 0x00200000 }) ∧
    (ticked { atAddu with pc := 0x00200000 }).runState = .halted := ⟨by decide, rfl, by decide⟩

theorem witness_NextInstructionIsAtOldNpc : exec (.addu 8 9 10) atAddu = .next (atAddu.setReg 10 3) ∧
    exec (.syscall 0) atAddu = .next (throwException .syscall atAddu) := ⟨rfl, rfl⟩

theorem witness_DecodeOfEncode : Instr.wf (.sll 31 31 31) = true ∧ Instr.wf (.sll 0 0 0) = true := by decide

/-- ADDU's word with its unused bits 10:6 clear and set. -/
theorem witness_DecodeReadsOnlyTheRow : decodeWord 0x01095021 = .ok (.addu 8 9 10) ∧
    0x010957E1 &&& (Instr.rowMask (.addu 8 9 10) ||| Instr.rowFields (.addu 8 9 10)) =
      0x01095021 &&& (Instr.rowMask (.addu 8 9 10) ||| Instr.rowFields (.addu 8 9 10)) := by decide

theorem witness_ReservedWordsRaise :
    Reserved 0xFC000000 ∧ Reserved 0x00000001 ∧ Reserved 0x0000003F ∧ Reserved 0x04020001 ∧ Reserved 0x40400000 := by
  refine ⟨?_, ?_, ?_, ?_, ?_⟩ <;> (unfold Reserved; decide)

theorem witness_GteFamilyDependsOnCu2 : srBit atAddu 30 = false ∧
    srBit atGte 30 = true := by decide

theorem witness_RfePopsModeStack : bits 0x42000010 26 6 = 0x10 ∧ bits 0x42000010 21 5 = 0x10 ∧
    bits 0x42000010 0 6 = 0x10 ∧ bits 0x421FFFD0 21 5 = 0x10 ∧ bits 0x421FFFD0 0 6 = 0x10 := by decide

theorem witness_Cop0SlotWriters : exec (.mtc0 8 3) atAddu = .next (atAddu.setC0 3 1) ∧
    (atAddu.setC0 3 1).getC0 3 ≠ atAddu.getC0 3 ∧
    exec .rfe { atAddu with c0regs := bank [(12, 0x3C)] } = .next { atAddu with c0regs := bank [(12, 0x3C)] }.popMode ∧
    { atAddu with c0regs := bank [(12, 0x3C)] }.popMode.getC0 12 ≠ 0x3C ∧
    exec (.syscall 0) atAddu = .next (throwException .syscall atAddu) ∧
    (throwException .syscall atAddu).getC0 14 ≠ atAddu.getC0 14 :=
  ⟨rfl, by decide, rfl, by decide, rfl, by decide⟩

/-- $t0 and $t1 with these values. -/
def pair (x y : Word) : State := at1000 0 [(8, x), (9, y)]

/-- Sums and differences at both ends of the range, inside and just outside. -/
theorem witness_SignedOverflowTraps :
    ((pair 0x7FFFFFFE 1).getReg 8).toInt + ((pair 0x7FFFFFFE 1).getReg 9).toInt = 2 ^ 31 - 1 ∧
    ((pair 0x7FFFFFFF 1).getReg 8).toInt + ((pair 0x7FFFFFFF 1).getReg 9).toInt = 2 ^ 31 ∧
    ((pair 0x80000001 1).getReg 8).toInt - ((pair 0x80000001 1).getReg 9).toInt = -2 ^ 31 ∧
    ((pair 0x80000000 1).getReg 8).toInt - ((pair 0x80000000 1).getReg 9).toInt = -2 ^ 31 - 1 ∧
    ((pair 0x80000000 1).getReg 8).toInt + (0xFFFF : BitVec 16).toInt = -2 ^ 31 - 1 := by decide

theorem witness_DivideCases_zeroDivisor : (pair 0 0).getReg 9 = 0 ∧ 0 ≤ ((pair 0 0).getReg 8).toInt := by decide
theorem witness_DivideCases_zeroDivisorNegative :
    (pair 0xFFFFFFFF 0).getReg 9 = 0 ∧ ((pair 0xFFFFFFFF 0).getReg 8).toInt < 0 := by decide
theorem witness_DivideCases_overflow :
    (pair 0x80000000 0xFFFFFFFF).getReg 8 = 0x80000000 ∧ (pair 0x80000000 0xFFFFFFFF).getReg 9 = 0xFFFFFFFF := by decide
theorem witness_DivideCases_ordinary : (pair 0x80000001 0xFFFFFFFF).getReg 9 ≠ 0 ∧
    ¬((pair 0x80000001 0xFFFFFFFF).getReg 8 = 0x80000000 ∧ (pair 0x80000001 0xFFFFFFFF).getReg 9 = 0xFFFFFFFF) := by
  decide

theorem witness_HiLoWriters : exec (.addu 8 9 10) atAddu = .next (atAddu.setReg 10 3) ∧
    Instr.writesHiLo (.addu 8 9 10) = false := ⟨rfl, rfl⟩

/-- The last byte, halfword and word of RAM; the word clause with isolation off. -/
theorem witness_DelayedLoadsFromStorage : Stored ramBinding 0 ∧
    Reaches (at1000 0 [(4, 0x1FFFFF)]) (ea (at1000 0 [(4, 0x1FFFFF)]) 4 0) .fetch .byte ramBinding ∧
    Reaches (at1000 0 [(4, 0x1FFFFF)]) (ea (at1000 0 [(4, 0x1FFFFF)]) 4 0xFFFF) .fetch .half ramBinding ∧
    (ea (at1000 0 [(4, 0x1FFFFF)]) 4 0xFFFF).toNat % 2 = 0 ∧
    Reaches (at1000 0 [(4, 0x1FFFFF)]) (ea (at1000 0 [(4, 0x1FFFFF)]) 4 0xFFFD) .fetch .word ramBinding ∧
    (ea (at1000 0 [(4, 0x1FFFFF)]) 4 0xFFFD).toNat % 4 = 0 ∧ srBit (at1000 0 [(4, 0x1FFFFF)]) 16 = false :=
  ⟨.inl rfl, ⟨rfl, rfl⟩, ⟨rfl, rfl⟩, by decide, ⟨rfl, rfl⟩, by decide, by decide⟩

theorem witness_MisalignedAccessesTrap :
    (ea (atMem 0) 4 1).toNat % 2 ≠ 0 ∧ (ea (atMem 0) 4 1).toNat % 4 ≠ 0 ∧
    (ea (atMem 0) 4 2).toNat % 2 = 0 ∧ (ea (atMem 0) 4 2).toNat % 4 ≠ 0 := by decide

theorem witness_IsolationSuppressesStoresAndLw : srBit (isolated (atMem 0)) 16 = true ∧
    (ea (isolated (atMem 0)) 4 2).toNat % 2 = 0 ∧ (ea (isolated (atMem 0)) 4 4).toNat % 4 = 0 ∧
    exec (.lh 4 8 2) (atMem 0) = .next ((atMem 0).setRegDelayed 8 0x4433) ∧
    exec (.lb 4 8 0) { atMem 0 with platform := [] } = .fault (.hostFault (.unmapped 0x100) []) :=
  ⟨by decide, by decide, by decide, rfl, rfl⟩

/-- The first and the last byte lane of a word of RAM. -/
theorem witness_MergedLoadsFromStorage : Stored ramBinding 0 ∧
    Reaches (atMem 0) (eaWord (atMem 0) 4 4) .fetch .word ramBinding ∧ lane (atMem 0) 4 4 = 0 ∧
    Reaches (atMem 0) (eaWord (atMem 0) 4 7) .fetch .word ramBinding ∧ lane (atMem 0) 4 7 = 3 :=
  ⟨.inl rfl, ⟨rfl, rfl⟩, by decide, ⟨rfl, rfl⟩, by decide⟩

theorem witness_StoresToMemory : (atMem 0).mem.wf = true ∧ ramBinding.device = .memory 0 ∧ srBit (atMem 0) 16 = false ∧
    Reaches (atMem 0) (ea (atMem 0) 4 3) .store .byte ramBinding ∧
    Reaches (atMem 0) (ea (atMem 0) 4 2) .store .half ramBinding ∧ (ea (atMem 0) 4 2).toNat % 2 = 0 ∧
    Reaches (atMem 0) (ea (atMem 0) 4 0) .store .word ramBinding ∧ (ea (atMem 0) 4 0).toNat % 4 = 0 :=
  ⟨by decide, rfl, by decide, ⟨rfl, rfl⟩, ⟨rfl, rfl⟩, by decide, ⟨rfl, rfl⟩, by decide⟩

theorem witness_MergedStoresToMemory : (atMem 0).mem.wf = true ∧ srBit (atMem 0) 16 = false ∧
    Reaches (atMem 0) (eaWord (atMem 0) 4 0) .fetch .word ramBinding ∧
    Reaches (atMem 0) (eaWord (atMem 0) 4 0) .store .word ramBinding ∧ lane (atMem 0) 4 0 = 0 ∧
    eaWord (atMem 0) 4 3 = eaWord (atMem 0) 4 0 ∧ lane (atMem 0) 4 3 = 3 :=
  ⟨by decide, by decide, ⟨rfl, rfl⟩, ⟨rfl, rfl⟩, by decide, by decide, by decide⟩

theorem witness_LoadsFromOpaqueDevices : hardregBinding.device = .opaqueUnit 0 ∧
    Reaches atDevice (ea atDevice 4 3) .fetch .byte hardregBinding ∧
    Reaches atDevice (ea atDevice 4 2) .fetch .half hardregBinding ∧ (ea atDevice 4 2).toNat % 2 = 0 ∧
    Reaches atDevice (ea atDevice 4 0) .fetch .word hardregBinding ∧ (ea atDevice 4 0).toNat % 4 = 0 ∧
    srBit atDevice 16 = false ∧ Reaches atDevice (eaWord atDevice 4 1) .fetch .word hardregBinding :=
  ⟨rfl, ⟨rfl, rfl⟩, ⟨rfl, rfl⟩, by decide, ⟨rfl, rfl⟩, by decide, by decide, ⟨rfl, rfl⟩⟩

theorem witness_StoresToOpaqueDevices : hardregBinding.device = .opaqueUnit 0 ∧ srBit atDevice 16 = false ∧
    Reaches atDevice (ea atDevice 4 3) .store .byte hardregBinding ∧
    Reaches atDevice (ea atDevice 4 2) .store .half hardregBinding ∧ (ea atDevice 4 2).toNat % 2 = 0 ∧
    Reaches atDevice (ea atDevice 4 0) .store .word hardregBinding ∧ (ea atDevice 4 0).toNat % 4 = 0 ∧
    Reaches atDevice (eaWord atDevice 4 1) .fetch .word hardregBinding ∧
    Reaches atDevice (eaWord atDevice 4 1) .store .word hardregBinding ∧ lane atDevice 4 0 = 0 ∧
    lane atDevice 4 3 = 3 ∧ eaWord atDevice 4 0 = eaWord atDevice 4 1 ∧ eaWord atDevice 4 3 = eaWord atDevice 4 1 :=
  ⟨rfl, by decide, ⟨rfl, rfl⟩, ⟨rfl, rfl⟩, by decide, ⟨rfl, rfl⟩, by decide, ⟨rfl, rfl⟩, ⟨rfl, rfl⟩, by decide,
    by decide, by decide, by decide⟩

/-- Unmapped; a store to the BIOS, whose fetches are offered. -/
theorem witness_BusFaultReasons_unmapped :
    firstAccess (at1000 0 [(4, 0x00200000)]) (.sw 4 8 0) = some (.store, 0x00200000, .word) ∧
    route (at1000 0 [(4, 0x00200000)]).platform (translateAddr 0x00200000) = none := by decide
theorem witness_BusFaultReasons_unsupported :
    firstAccess (at1000 0 [(4, 0xBFC00000)]) (.sw 4 8 0) = some (.store, 0xBFC00000, .word) ∧
    route (at1000 0 [(4, 0xBFC00000)]).platform (translateAddr 0xBFC00000) = some biosBinding ∧
    offers biosBinding .store .word = false := by decide
theorem witness_BusFaultReasons_mergedStore :
    firstAccess (at1000 0 [(4, 0xBFC00000)]) (.swl 4 8 1) = some (.fetch, 0xBFC00000, .word) ∧
    route (at1000 0 [(4, 0xBFC00000)]).platform (translateAddr 0xBFC00000) = some biosBinding ∧
    offers biosBinding .fetch .word = true ∧ offers biosBinding .store .word = false ∧
    mergesStore (.swl 4 8 1) = true := by decide

theorem witness_OnlyTheseHostFault :
    exec (.cop2 0) atGte = .fault (.hostFault (.unimplemented 0x48000000) []) ∧
    exec (.sw 4 8 0) (at1000 0 [(4, 0x00200000)]) = .fault (.hostFault (.unmapped 0x00200000) []) ∧
    exec (.swl 4 8 1) (at1000 0 [(4, 0xBFC00000)]) = .fault (.hostFault (.unsupportedWidth biosBinding .store .word) []) :=
  ⟨rfl, rfl, rfl⟩

theorem witness_OnlyTheseRaise : raises (atMem 0) (.lw 4 8 2) = some 4 ∧ raises (atMem 0) (.lw 4 8 0) = none ∧
    exec (.lw 4 8 0) (atMem 0) = .next ((atMem 0).setRegDelayed 8 0x44332211) := ⟨by decide, by decide, rfl⟩

/-- The most negative offset. -/
theorem witness_ConditionalBranches : { atAddu with npc := 0x7FFE1000 } =
    { atAddu with npc := atAddu.npc - 4 + BitVec.ofInt 32 (4 * (0x8000 : BitVec 16).toInt) } := by decide

theorem witness_LinkingBranches : (Instr.bltzal 8 4 = .bltzal 8 4 ∧ false = (atAddu.getReg 8).getLsbD 31) ∧
    (Instr.bgezal 8 4 = .bgezal 8 4 ∧ true = !(atAddu.getReg 8).getLsbD 31) := by decide

theorem witness_HandlersLeaveTheTicksOwnState : exec (.addu 8 9 10) atAddu = .next (atAddu.setReg 10 3) := rfl

/-- A load of $t0 pending while this word is about to run. -/
def loading (w : Word) : State := { at1000 w [(8, 1), (9, 2)] with loadDelayTarget := 8, loadDelayValue := 7 }

/-- ADDU $t2, $t0, $t1 in the load-delay slot. -/
theorem witness_LoadDelaySlotSeesOldValue_addu :
    (loading 0x01095021).runState = .running ∧ (loading 0x01095021).pc.toNat % 4 = 0 ∧
    busFetch (loading 0x01095021).pc .word (loading 0x01095021).latchCpc =
      .ok (0x01095021, (loading 0x01095021).latchCpc) ∧
    decodeWord 0x01095021 = .ok (.addu 8 9 10) := ⟨by decide, by decide, rfl, by decide⟩
/-- ADDIU $t0, $t0, 1 there, which writes the load's own target, and SYSCALL, which raises. -/
theorem witness_LoadDelaySlotSeesOldValue_every :
    (loading 0x25080001).runState = .running ∧ (loading 0x25080001).pc.toNat % 4 = 0 ∧
    busFetch (loading 0x25080001).pc .word (loading 0x25080001).latchCpc =
      .ok (0x25080001, (loading 0x25080001).latchCpc) ∧
    decodeWord 0x25080001 = .ok (.addiu 8 8 1) ∧
    exec (.addiu 8 8 1) { atStepFive (loading 0x25080001).latchCpc with outRegs := bank [] } =
      .next ({ atStepFive (loading 0x25080001).latchCpc with outRegs := bank [] }.setReg 8 2) ∧
    exec (.syscall 0) { atStepFive (loading 0x0000000C).latchCpc with outRegs := bank [] } =
      .next (throwException .syscall { atStepFive (loading 0x0000000C).latchCpc with outRegs := bank [] }) :=
  ⟨by decide, by decide, rfl, by decide, rfl, rfl⟩

/-- Banks that differ, as a load_state can leave them. -/
theorem witness_TickRestoresBanks : { atAddu with outRegs := bank [(0, 5), (8, 6)] }.runState = .running ∧
    step { atAddu with outRegs := bank [(0, 5), (8, 6)] } =
      .next (ticked { atAddu with outRegs := bank [(0, 5), (8, 6)] }) ∧
    (ticked { atAddu with outRegs := bank [(0, 5), (8, 6)] }).runState ≠ .halted := ⟨by decide, rfl, by decide⟩

theorem witness_CounterIsInvisible : step atAddu = .next (ticked atAddu) := rfl

/-- SR with every bit but 16, 22 and 30 set, against SR = 0. -/
theorem witness_StatusStorageBitsAreNotRead_exec : SrAgrees atAddu 0xBFBEFFFF ∧
    (∀ rt : Reg, Instr.addu 8 9 10 ≠ .mfc0 rt 12) ∧
    exec (.addu 8 9 10) atAddu = .next (atAddu.setReg 10 3) ∧
    exec (.mtc0 8 12) atAddu = .next (atAddu.setC0 12 1) ∧
    exec (.sw 4 8 0) (at1000 0 [(4, 0x00200000)]) = .fault (.hostFault (.unmapped 0x00200000) []) :=
  ⟨⟨by decide, by decide, by decide⟩, by decide, rfl, rfl, rfl⟩
theorem witness_StatusStorageBitsAreNotRead_step : SrAgrees atAddu 0xBFBEFFFF ∧
    (∀ w u rt, busFetch atAddu.pc .word { atAddu with cpc := atAddu.pc } = .ok (w, u) →
      decodeWord w ≠ .ok (.mfc0 rt 12)) ∧
    step atAddu = .next (ticked atAddu) := by
  refine ⟨⟨by decide, by decide, by decide⟩, fun w u rt h => ?_, rfl⟩
  have e : busFetch atAddu.pc .word { atAddu with cpc := atAddu.pc } = .ok (0x01095021, atAddu.latchCpc) := rfl
  rw [e] at h
  cases h
  decide +revert

theorem witness_DeviceRecordOnlyGrows : step atAddu = .next (ticked atAddu) := rfl

theorem witness_OnlyRamAndScratchpadChange : (atMem 0xAC880000).platform = defaultPlatform ∧
    step (atMem 0xAC880000) = .next (ticked (atMem 0xAC880000)) ∧
    ¬(0x200000 < 0x200000) ∧ ¬(0x1F800000 ≤ 0x1F800400 ∧ 0x1F800400 < 0x1F800400) := ⟨by decide, rfl, by decide, by decide⟩

/-- The ends of the four ranges of 20_memory.md R82, translated. -/
theorem witness_SegmentTranslation : translateAddr 0x7FFFFFFF = 0x7FFFFFFF ∧ translateAddr 0x80000000 = 0 ∧
    translateAddr 0x9FFFFFFF = 0x1FFFFFFF ∧ translateAddr 0xA0000000 = 0 ∧ translateAddr 0xBFFFFFFF = 0x1FFFFFFF ∧
    translateAddr 0xC0000000 = 0xC0000000 ∧ translateAddr 0xFFFFFFFF = 0xFFFFFFFF ∧
    translateAddr (0x1FFFFFFF + 0xA0000000) = 0x1FFFFFFF := by decide

/-- The addresses on each side of each hole of 20_memory.md R96. -/
theorem witness_DefaultPlatformHoles : route defaultPlatform 0x001FFFFF = some ramBinding ∧
    route defaultPlatform 0x00200000 = none ∧ route defaultPlatform 0x1EFFFFFF = none ∧
    route defaultPlatform 0x1F000000 = some expansion1Binding ∧ route defaultPlatform 0x1F8003FF = some scratchpadBinding ∧
    route defaultPlatform 0x1F800400 = none ∧ route defaultPlatform 0x1F800FFF = none ∧
    route defaultPlatform 0x1F801000 = some hardregBinding ∧ route defaultPlatform 0x1F803000 = none ∧
    route defaultPlatform 0x1FBFFFFF = none ∧ route defaultPlatform 0x1FC00000 = some biosBinding ∧
    route defaultPlatform 0x1FC7FFFF = some biosBinding ∧ route defaultPlatform 0x1FC80000 = none ∧
    route defaultPlatform 0xFFFFFFFF = none := by decide

theorem witness_LittleEndianReadBack : (atMem 0).mem.wf = true := by decide

/-- 95_test_vectors.md I4, I5: an image too short, and a first word of 31 and of 32. -/
theorem witness_LoadStateAcceptsExactly : (State.reset.saveState.take 415).length ≠ 416 ∧
    (State.reset.loadState (31 :: State.reset.saveState.drop 1)).isSome = true ∧
    (State.reset.loadState (32 :: State.reset.saveState.drop 1)).isSome = false := by decide

/-- A running CPU stops at the breakpoint after one of three ticks. -/
theorem witness_RunUntilChangeIsBounded :
    (runUntilChange 3 { atAddu with breakpoints := [0x80001004] }).1 = 1 := by decide

theorem witness_HostOperationsTouchOneField :
    { atAddu with breakpoints := [4, 8] }.breakpointsRising ∧ ramBinding.start.toNat % 4 = 0 ∧
    ramBinding.size.toNat % 4 = 0 ∧ ¬({ ramBinding with start := 2 }.start.toNat % 4 = 0) := by decide

end Sys2Proof.Tests
end

namespace Sys2Proof.Machine

/-! ## Frames: what the bus and the instructions leave unchanged -/

/-- A bus fetch changes nothing but the record of device accesses. -/
theorem busFetch_frame {a : Word} {w : Width} {s u : State} {v : Word} (h : busFetch a w s = .ok (v, u)) :
    ∃ hist, u = { s with devHistory := hist } := by
  obtain rfl | ⟨b, off, rfl⟩ := busFetch_state h
  · exact ⟨u.devHistory, rfl⟩
  · exact ⟨_, rfl⟩

/-- A bus store changes nothing but memory and the record of device accesses, and keeps memory canonical. -/
theorem busStore_frame {a : Word} {w : Width} {v : Word} {s t : State} (h : busStore a w v s = .ok t) :
    ∃ m hist, t = { s with mem := m, devHistory := hist } ∧ (s.mem.wf = true → m.wf = true) := by
  obtain ⟨b, -, rfl⟩ := busStore_ok_iff.1 h
  obtain ⟨base, -, e⟩ | ⟨base, -, e⟩ | ⟨id, -, e⟩ := deviceStore_state b (translateAddr a - b.start) w v s
  · exact ⟨_, _, e, Memory.wf_writeLE⟩
  · exact ⟨s.mem, s.devHistory, e, fun hm => hm⟩
  · exact ⟨s.mem, _, e, fun hm => hm⟩

/-- What an instruction that raises nothing writes of the CPU itself, `s` being the state its bus accesses left. -/
inductive CpuWrite (i : Instr) (s : State) : State → Prop where
  | nothing : CpuWrite i s s
  | register (r : Reg) (v : Word) : CpuWrite i s (s.setReg r v)
  | stage (r : Reg) (v : Word) : CpuWrite i s (s.setRegDelayed r v)
  | hiLo (a b : Word) (h : i.writesHiLo = true) : CpuWrite i s ((s.setHi a).setLo b)
  | branch (n : Word) (h : i.isControl = true) : CpuWrite i s (s.setNpc n)
  | link (r : Reg) (v n : Word) (h : i.isControl = true) : CpuWrite i s ((s.setReg r v).setNpc n)
  | slot (r k : Reg) (h : i = .mtc0 r k) : CpuWrite i s (s.setC0 k (s.getReg r))
  | popMode (h : i = .rfe) : CpuWrite i s s.popMode

/-- An effect is an exception, or a bus part, which keeps memory canonical, and then a CPU part. The frames below follow
from this split with no look at the bus. -/
theorem Effect.split {i : Instr} {s t : State} (h : Effect i s t) :
    (∃ c, t = throwException c s) ∨
    ∃ m hist, (s.mem.wf = true → m.wf = true) ∧ CpuWrite i { s with mem := m, devHistory := hist } t := by
  cases h with
  | trap c => exact .inl ⟨c, rfl⟩
  | nothing => exact .inr ⟨s.mem, s.devHistory, fun hm => hm, .nothing⟩
  | register r v => exact .inr ⟨s.mem, s.devHistory, fun hm => hm, .register r v⟩
  | hiLo a b hi => exact .inr ⟨s.mem, s.devHistory, fun hm => hm, .hiLo a b hi⟩
  | branch n hi => exact .inr ⟨s.mem, s.devHistory, fun hm => hm, .branch n hi⟩
  | link r v n hi => exact .inr ⟨s.mem, s.devHistory, fun hm => hm, .link r v n hi⟩
  | stageC0 r k => exact .inr ⟨s.mem, s.devHistory, fun hm => hm, .stage r _⟩
  | writeC0 r k hi => exact .inr ⟨s.mem, s.devHistory, fun hm => hm, .slot r k hi⟩
  | popMode hi => exact .inr ⟨s.mem, s.devHistory, fun hm => hm, .popMode hi⟩
  | load _ _ _ _ r v hf =>
    obtain ⟨hist, rfl⟩ := busFetch_frame hf
    exact .inr ⟨s.mem, hist, fun hm => hm, .stage r v⟩
  | merge _ _ _ r v hf =>
    obtain ⟨hist, rfl⟩ := busFetch_frame hf
    exact .inr ⟨s.mem, hist, fun hm => hm, .register r v⟩
  | store _ _ _ _ hs =>
    obtain ⟨m, hist, rfl, hm⟩ := busStore_frame hs
    exact .inr ⟨m, hist, hm, .nothing⟩
  | mergeStore _ _ _ _ _ hf hs =>
    obtain ⟨_, rfl⟩ := busFetch_frame hf
    obtain ⟨m, hist, rfl, hm⟩ := busStore_frame hs
    exact .inr ⟨m, hist, hm, .nothing⟩

/-- The fields that step 5 never writes: the in bank (40_tick_pipeline.md R176), cpc, and what only the tick's other
steps or the host change. -/
structure State.SameFixedFields (s t : State) : Prop where
  inRegs : t.inRegs = s.inRegs
  cpc : t.cpc = s.cpc
  runState : t.runState = s.runState
  haltReason : t.haltReason = s.haltReason
  breakpoints : t.breakpoints = s.breakpoints
  instrExecCnt : t.instrExecCnt = s.instrExecCnt
  platform : t.platform = s.platform

theorem Effect.sameFixedFields {i : Instr} {s t : State} (h : Effect i s t) : s.SameFixedFields t := by
  obtain ⟨c, rfl⟩ | ⟨m, hist, -, hw⟩ := h.split
  · exact ⟨rfl, rfl, rfl, rfl, rfl, rfl, rfl⟩
  · cases hw <;> exact ⟨rfl, rfl, rfl, rfl, rfl, rfl, rfl⟩

/-- Register 0 of the out bank stays 0 (10_state.md R31). -/
theorem Effect.getOut_zero {i : Instr} {s t : State} (h : Effect i s t) (h0 : s.getOut 0 = 0) : t.getOut 0 = 0 := by
  obtain ⟨c, rfl⟩ | ⟨m, hist, -, hw⟩ := h.split
  · exact h0
  · cases hw with
    | register | link => simp
    | _ => exact h0

/-- Memory stays in canonical form (20_memory.md R98). -/
theorem Effect.mem_wf {i : Instr} {s t : State} (h : Effect i s t) (hs : s.mem.wf = true) : t.mem.wf = true := by
  obtain ⟨c, rfl⟩ | ⟨m, hist, hm, hw⟩ := h.split
  · exact hs
  · cases hw <;> exact hm hs

/-- Only an exception writes pc, and only an exception, a branch or a jump npc (44_control.md R320). -/
theorem Effect.pc_npc {i : Instr} {s t : State} (h : Effect i s t) :
    (∃ c, t = throwException c s) ∨ (t.pc = s.pc ∧ (i.isControl = false → t.npc = s.npc)) := by
  refine h.split.imp_right fun ⟨m, hist, _, hw⟩ => ?_
  cases hw with
  | branch _ hi | link _ _ _ hi => exact ⟨rfl, fun hn => absurd (hi.symm.trans hn) nofun⟩
  | _ => exact ⟨rfl, fun _ => rfl⟩

theorem Effect.hi_lo {i : Instr} {s t : State} (h : Effect i s t) (hi : i.writesHiLo = false) :
    t.hi = s.hi ∧ t.lo = s.lo := by
  obtain ⟨c, rfl⟩ | ⟨m, hist, -, hw⟩ := h.split
  · exact ⟨rfl, rfl⟩
  · cases hw with
    | hiLo _ _ hn => exact absurd (hn.symm.trans hi) nofun
    | _ => exact ⟨rfl, rfl⟩

/-- An exception writes no slot but SR, Cause and EPC (60_exceptions.md R382). -/
theorem throwException_getC0_ne {c : Cause} {s : State} {k : Reg} (h : (throwException c s).getC0 k ≠ s.getC0 k) :
    k = srSlot ∨ k = causeSlot ∨ k = epcSlot := by
  by_contra hk
  obtain ⟨hsr, hcause, hepc⟩ : k ≠ srSlot ∧ k ≠ causeSlot ∧ k ≠ epcSlot := by simpa [not_or] using hk
  rw [throwException_getC0, if_neg hepc, if_neg hcause, if_neg hsr] at h
  exact h rfl

theorem Effect.getC0_writers {i : Instr} {s t : State} {k : Reg} (h : Effect i s t) (hk : t.getC0 k ≠ s.getC0 k) :
    (∃ rt, i = .mtc0 rt k) ∨ (i = .rfe ∧ k = srSlot) ∨
      ((k = srSlot ∨ k = causeSlot ∨ k = epcSlot) ∧ ∃ c, t = throwException c s) := by
  obtain ⟨c, rfl⟩ | ⟨m, hist, -, hw⟩ := h.split
  · exact .inr (.inr ⟨throwException_getC0_ne hk, c, rfl⟩)
  · cases hw with
    | slot r n hi =>
      rw [State.getC0_setC0] at hk
      obtain rfl : k = n := of_not_not fun hne => hk (if_neg hne)
      exact .inl ⟨r, hi⟩
    | popMode hi =>
      rw [State.getC0_popMode] at hk
      exact .inr (.inl ⟨hi, of_not_not fun hne => hk (if_neg hne)⟩)
    | _ => exact absurd rfl hk

/-! ## The tick and the invariant -/

theorem State.commitLoad_getOut_zero (s : State) : s.commitLoad.getOut 0 = 0 := by simp

/-- Steps 6 and 7 make the banks agree, and register 0 is 0 in both where it is in the out bank. -/
theorem State.retire_commitBanks_banks {v : State} (h : v.getOut 0 = 0) :
    v.commitBanks.retire.banksAgree ∧ v.commitBanks.retire.zeroReg := ⟨rfl, h, h⟩

/-- Step 5 starts with register 0 at 0 in the out bank, so it ends so. -/
theorem executeWord_getOut_zero {ins : Word} {u v : State} (h : executeWord ins u.commitLoad = .next v) :
    v.getOut 0 = 0 := by
  obtain ⟨i, he⟩ := executeWord_effect h
  exact he.getOut_zero u.commitLoad_getOut_zero

/-- A host fault keeps the fields the invariant speaks of. -/
theorem State.Inv.haltOn {s : State} (h : s.Inv) (f : Fault) : (s.haltOn f).Inv := by
  cases f with
  | hostFault => exact h

theorem State.Inv.retired {s u v : State} {ins : Word} (h : s.Inv) (hf : busFetch s.pc .word s.latchCpc = .ok (ins, u))
    (hv : executeWord ins u.advance.commitLoad = .next v) : v.commitBanks.retire.Inv := by
  obtain ⟨-, -, hm, hb, hp⟩ := h
  obtain ⟨_, rfl⟩ := busFetch_frame hf
  obtain ⟨hagree, hzero⟩ := State.retire_commitBanks_banks (executeWord_getOut_zero hv)
  obtain ⟨i, he⟩ := executeWord_effect hv
  have hfix := he.sameFixedFields
  refine ⟨hzero, hagree, he.mem_wf hm, ?_, ?_⟩
  · show v.breakpoints.Pairwise _
    rw [hfix.breakpoints]
    exact hb
  · show platformAligned v.platform = true
    rw [hfix.platform]
    exact hp

/-- Settles O3: of the four ways a step can end, only a retired tick writes a field the invariant speaks of. -/
theorem stepKeepsInvariant : Obligations.StepKeepsInvariant := by
  intro s t hs h
  obtain ⟨-, rfl⟩ | ⟨-, -, rfl⟩ | ⟨-, -, f, -, rfl⟩ | ⟨-, -, ins, u, v, hf, hv, rfl⟩ := step_cases h
  · exact hs
  · exact hs
  · exact hs.haltOn f
  · exact hs.retired hf hv

/-- Settles O8, from the effects that write pc or npc. -/
theorem nextInstructionIsAtOldNpc : Obligations.NextInstructionIsAtOldNpc :=
  fun _ _ _ h => (exec_effect h).pc_npc

/-- Settles O19, from the effects that write a COP0 slot. -/
theorem cop0SlotWriters : Obligations.Cop0SlotWriters :=
  fun _ _ _ _ h hk => (exec_effect h).getC0_writers hk

/-- Settles O28, from the effects that write hi or lo. -/
theorem hiLoWriters : Obligations.HiLoWriters :=
  fun _ _ _ h hi => (exec_effect h).hi_lo hi

theorem misaligned_word_of_mod {a : Word} (h : a.toNat % 4 = 0) : misaligned a .word = false := by
  simpa [misaligned, bits] using h

/-- Settles O45: such a tick ends in steps 6 and 7, since an aligned pc rules out the step-1 exception and a host fault
halts. -/
theorem tickRestoresBanks : Obligations.TickRestoresBanks := by
  intro s t hrun hpc h hhalt
  obtain ⟨hn, -⟩ | ⟨-, hmis, -⟩ | ⟨-, -, ⟨r, hist⟩, -, rfl⟩ | ⟨-, -, ins, u, v, -, hv, rfl⟩ := step_cases h
  · exact absurd hrun hn
  · exact absurd (misaligned_word_of_mod hpc) (by simp [hmis])
  · exact absurd rfl hhalt
  · exact State.retire_commitBanks_banks (executeWord_getOut_zero hv)

end Sys2Proof.Machine

namespace Sys2Proof.Machine

/-! ## init and reset -/

theorem resetBank_false : resetBank false = Vector.replicate 32 0 := by
  apply regFile_ext
  intro r
  simp [resetBank]

theorem State.getC0_init (s : State) (sr : Word) (unknown : Bool) (k : Reg) :
    (s.init sr unknown).getC0 k = if k = 12 then sr else 0 := by
  show ((Vector.replicate 32 0).set 12 sr)[k.val] = _
  rw [Vector.getElem_set, Vector.getElem_replicate]
  exact if_congr ⟨fun e => Fin.ext e.symm, fun e => (congrArg Fin.val e).symm⟩ rfl rfl

/-- Settles O1: the banks and the COP0 slots entry by entry, every other field as `init` writes it. -/
theorem initSetsEveryField : Obligations.InitSetsEveryField := by
  refine ⟨fun s sr => ⟨fun r => ?_, rfl, rfl, rfl, rfl, rfl, rfl, rfl, s.getC0_init sr false, rfl, rfl, rfl, rfl, rfl⟩,
    fun p m sr => ⟨rfl, rfl, rfl⟩⟩
  simp [State.init, State.getReg, State.getOut, resetBank_false]

/-- Settles O2: init's banks are those of the reset state, and the invariant is a finite check. -/
theorem resetMeetsInvariant : Obligations.ResetMeetsInvariant := by
  refine ⟨?_, by decide⟩
  unfold powerOn State.init
  rw [resetBank_false]
  rfl

/-! ## Save states -/

theorem length_flatMap_wordBytes (ws : List Word) : (ws.flatMap wordBytes).length = 4 * ws.length := by
  induction ws with
  | nil => rfl
  | cons v ws ih =>
    rw [List.flatMap_cons, List.length_append, ih, List.length_cons]
    simp only [wordBytes, List.length_cons, List.length_nil]
    omega

/-- Reading words inverts laying them out, least significant byte first (10_state.md R53). -/
theorem wordsOfBytes_flatMap_wordBytes (ws : List Word) : wordsOfBytes (ws.flatMap wordBytes) = ws := by
  induction ws with
  | nil => rfl
  | cons v ws ih =>
    show wordOfBytes (byteOf v 0) (byteOf v 1) (byteOf v 2) (byteOf v 3) :: wordsOfBytes (ws.flatMap wordBytes) = _
    rw [wordOfBytes_byteOf, ih]

theorem State.length_imageWords (s : State) : s.imageWords.length = 104 := by simp [State.imageWords]

theorem State.length_saveState (s : State) : s.saveState.length = 416 := by
  unfold State.saveState
  rw [length_flatMap_wordBytes, s.length_imageWords]

/-- A bank read back at the offset where it was laid down. -/
theorem bankOfImage_append (pre post : List Word) (f : RegFile) :
    bankOfImage (pre ++ f.toList ++ post) pre.length = f := by
  apply regFile_ext
  intro j
  simp [bankOfImage, List.getD_eq_getElem?_getD, List.getElem?_append]

/-- Each field of an image is read at the offset where `imageWords` put it (10_state.md R53). -/
theorem State.loadImage_imageWords (s t : State) :
    t.loadImage s.imageWords s.loadDelayTarget =
      { t with
        loadDelayTarget := s.loadDelayTarget, loadDelayValue := s.loadDelayValue, inRegs := s.inRegs,
        outRegs := s.outRegs, hi := s.hi, lo := s.lo, cpc := s.cpc, pc := s.pc, npc := s.npc, c0regs := s.c0regs,
        instrExecCnt := s.instrExecCnt } := by
  have hin : bankOfImage s.imageWords 2 = s.inRegs := by
    simpa [State.imageWords] using bankOfImage_append [BitVec.ofNat 32 s.loadDelayTarget.val, s.loadDelayValue]
      (s.outRegs.toList ++ [s.hi, s.lo, s.cpc, s.pc, s.npc] ++ s.c0regs.toList ++ [s.instrExecCnt]) s.inRegs
  have hout : bankOfImage s.imageWords 34 = s.outRegs := by
    simpa [State.imageWords] using bankOfImage_append
      ([BitVec.ofNat 32 s.loadDelayTarget.val, s.loadDelayValue] ++ s.inRegs.toList)
      ([s.hi, s.lo, s.cpc, s.pc, s.npc] ++ s.c0regs.toList ++ [s.instrExecCnt]) s.outRegs
  have hc0 : bankOfImage s.imageWords 71 = s.c0regs := by
    simpa [State.imageWords] using bankOfImage_append
      ([BitVec.ofNat 32 s.loadDelayTarget.val, s.loadDelayValue] ++ s.inRegs.toList ++ s.outRegs.toList
        ++ [s.hi, s.lo, s.cpc, s.pc, s.npc]) [s.instrExecCnt] s.c0regs
  unfold State.loadImage
  rw [hin, hout, hc0]
  simp [State.imageWords, List.getD_eq_getElem?_getD]

/-- Settles O54: the bytes read back as the words they were made of, and the words as the fields. -/
theorem saveThenLoadRestores : Obligations.SaveThenLoadRestores := by
  intro s t
  refine ⟨s.length_saveState, ?_⟩
  have hwords : wordsOfBytes s.saveState = s.imageWords := wordsOfBytes_flatMap_wordBytes s.imageWords
  have htarget : (s.imageWords.getD 0 0).toNat = s.loadDelayTarget.val :=
    Nat.mod_eq_of_lt (s.loadDelayTarget.isLt.trans (by decide))
  unfold State.loadState
  rw [if_pos s.length_saveState, hwords, dif_pos (htarget.trans_lt s.loadDelayTarget.isLt)]
  simp only [htarget]
  rw [← s.loadImage_imageWords t]

end Sys2Proof.Machine

namespace Sys2Proof.Machine

open Sys2Proof.Claims

/-! ## Relations between states that every operation keeps

Two runs from related states stay related where the relation leaves alike all that instructions and the tick read, and
every state operation keeps it. The instruction set is walked through once, in `Congruence.exec`; that nothing depends
on the counter, and that nothing reads SR outside three bits, are two relations that qualify. -/

/-- Related states show instructions and the tick the same values, and each operation keeps the relation. COP0 slots
need not agree; `isolate` and `cu2` are what rules read of SR. -/
structure Congruence (R : State → State → Prop) : Prop where
  inRegs {s t : State} : R s t → t.inRegs = s.inRegs
  hi {s t : State} : R s t → t.hi = s.hi
  lo {s t : State} : R s t → t.lo = s.lo
  pc {s t : State} : R s t → t.pc = s.pc
  npc {s t : State} : R s t → t.npc = s.npc
  runState {s t : State} : R s t → t.runState = s.runState
  platform {s t : State} : R s t → t.platform = s.platform
  mem {s t : State} : R s t → t.mem = s.mem
  devHistory {s t : State} : R s t → t.devHistory = s.devHistory
  isolate {s t : State} : R s t → t.isolate = s.isolate
  cu2 {s t : State} : R s t → t.cu2 = s.cu2
  setReg {s t : State} (r : Reg) (v : Word) : R s t → R (s.setReg r v) (t.setReg r v)
  setRegDelayed {s t : State} (r : Reg) (v : Word) : R s t → R (s.setRegDelayed r v) (t.setRegDelayed r v)
  setHi {s t : State} (v : Word) : R s t → R (s.setHi v) (t.setHi v)
  setLo {s t : State} (v : Word) : R s t → R (s.setLo v) (t.setLo v)
  setNpc {s t : State} (v : Word) : R s t → R (s.setNpc v) (t.setNpc v)
  setC0 {s t : State} (k : Reg) (v : Word) : R s t → R (s.setC0 k v) (t.setC0 k v)
  setMem {s t : State} (m : Memory) : R s t → R (s.setMem m) (t.setMem m)
  recordEvent {s t : State} (e : DeviceEvent) : R s t → R (s.recordEvent e) (t.recordEvent e)
  popMode {s t : State} : R s t → R s.popMode t.popMode
  throwException {s t : State} (c : Cause) : R s t → R (throwException c s) (throwException c t)
  latchCpc {s t : State} : R s t → R s.latchCpc t.latchCpc
  advance {s t : State} : R s t → R s.advance t.advance
  commitLoad {s t : State} : R s t → R s.commitLoad t.commitLoad
  commitBanks {s t : State} : R s t → R s.commitBanks t.commitBanks
  retire {s t : State} : R s t → R s.retire t.retire
  haltOn {s t : State} (f : Fault) : R s t → R (s.haltOn f) (t.haltOn f)

/-- The same outcome but for the next state, which is related. -/
inductive SameOutcome (R : State → State → Prop) : Result → Result → Prop where
  | next {s t : State} (h : R s t) : SameOutcome R (.next s) (.next t)
  | fault (f : Fault) : SameOutcome R (.fault f) (.fault f)

section outcomes

variable {R : State → State → Prop}

theorem SameOutcome.of_next {o : Result} {u : State} (h : SameOutcome R (.next u) o) : ∃ v, o = .next v ∧ R u v := by
  cases h with
  | next h => exact ⟨_, rfl, h⟩

theorem SameOutcome.of_fault {o : Result} {f : Fault} (h : SameOutcome R (.fault f) o) : o = .fault f := by
  cases h
  rfl

theorem SameOutcome.ite {c c' : Bool} {x x' y y' : Result} (hc : c' = c) (hx : SameOutcome R x x')
    (hy : SameOutcome R y y') : SameOutcome R (if c then x else y) (if c' then x' else y') := by
  subst hc
  cases c'
  · exact hy
  · exact hx

end outcomes

namespace Congruence

variable {R : State → State → Prop} (hR : Congruence R) {s t : State} (h : R s t)

include hR h

theorem getReg (r : Reg) : t.getReg r = s.getReg r := congrArg (fun f : RegFile => f[r.val]) (hR.inRegs h)

/-! ### The bus -/

theorem deviceFetch (b : Binding) (off : Word) (w : Width) :
    ∃ v u u', deviceFetch b off w s = (v, u) ∧ deviceFetch b off w t = (v, u') ∧ R u u' := by
  cases hd : b.device with
  | memory base =>
    rw [deviceFetch_memory hd, deviceFetch_memory hd, hR.mem h]
    exact ⟨_, _, _, rfl, rfl, h⟩
  | rom base =>
    rw [deviceFetch_rom hd, deviceFetch_rom hd, hR.mem h]
    exact ⟨_, _, _, rfl, rfl, h⟩
  | opaqueUnit id =>
    rw [deviceFetch_opaqueUnit hd, deviceFetch_opaqueUnit hd, hR.devHistory h]
    exact ⟨_, _, _, rfl, rfl, hR.recordEvent _ h⟩

theorem deviceStore (b : Binding) (off : Word) (w : Width) (v : Word) :
    R (deviceStore b off w v s) (deviceStore b off w v t) := by
  cases hd : b.device with
  | memory base =>
    rw [deviceStore_memory hd, deviceStore_memory hd, hR.mem h]
    exact hR.setMem _ h
  | rom base =>
    simpa only [Machine.deviceStore, hd] using h
  | opaqueUnit id =>
    rw [deviceStore_opaqueUnit hd, deviceStore_opaqueUnit hd]
    exact hR.recordEvent _ h

/-- A bus fetch stops alike in related states, or reads the same value and leaves related states. -/
theorem busFetch (a : Word) (w : Width) :
    (∃ f, busFetch a w s = .error f ∧ busFetch a w t = .error f) ∨
    ∃ v u u', busFetch a w s = .ok (v, u) ∧ busFetch a w t = .ok (v, u') ∧ R u u' := by
  unfold Machine.busFetch
  rw [busRoute_congr (hR.platform h), hR.devHistory h]
  cases busRoute a .fetch w s with
  | error r => exact .inl ⟨_, rfl, rfl⟩
  | ok b =>
    obtain ⟨v, u, u', hs, ht, hu⟩ := hR.deviceFetch h b (translateAddr a - b.start) w
    exact .inr ⟨v, u, u', congrArg Except.ok hs, congrArg Except.ok ht, hu⟩

/-- A bus store stops alike in related states, or leaves related states. -/
theorem busStore (a : Word) (w : Width) (v : Word) :
    (∃ f, busStore a w v s = .error f ∧ busStore a w v t = .error f) ∨
    ∃ u u', busStore a w v s = .ok u ∧ busStore a w v t = .ok u' ∧ R u u' := by
  unfold Machine.busStore
  rw [busRoute_congr (hR.platform h), hR.devHistory h]
  cases busRoute a .store w s with
  | error r => exact .inl ⟨_, rfl, rfl⟩
  | ok b => exact .inr ⟨_, _, rfl, rfl, hR.deviceStore h b _ w v⟩

/-! ### Shared bodies -/

theorem raise (c : Cause) : SameOutcome R (raise c s) (raise c t) := .next (hR.throwException c h)

theorem writeReg {r : Reg} {v v' : Word} (hv : v' = v) : SameOutcome R (writeReg r v s) (writeReg r v' t) :=
  hv ▸ .next (hR.setReg r v' h)

theorem writeHiLo {p p' : Word × Word} (hp : p' = p) : SameOutcome R (writeHiLo p s) (writeHiLo p' t) :=
  hp ▸ .next (hR.setLo _ (hR.setHi _ h))

theorem next_setNpc {n n' : Word} (hn : n' = n) : SameOutcome R (.next (s.setNpc n)) (.next (t.setNpc n')) :=
  hn ▸ .next (hR.setNpc n' h)

/-- JAL and JALR: the link, then the jump (44_control.md R331, R333). -/
theorem linkJump {r : Reg} {n n' : Word} (hn : n' = n) :
    SameOutcome R (.next ((s.setReg r s.npc).setNpc n)) (.next ((t.setReg r t.npc).setNpc n')) := by
  rw [hR.npc h]
  exact hR.next_setNpc (hR.setReg r s.npc h) hn

theorem branchIf {c c' : Bool} (hc : c' = c) (imm16 : BitVec 16) :
    SameOutcome R (branchIf c imm16 s) (branchIf c' imm16 t) :=
  .ite hc (hR.next_setNpc h (by rw [hR.npc h])) (.next h)

theorem linkBranchIf {c c' : Bool} (hc : c' = c) (imm16 : BitVec 16) :
    SameOutcome R (linkBranchIf c imm16 s) (linkBranchIf c' imm16 t) := by
  unfold Machine.linkBranchIf
  rw [hR.npc h]
  exact hR.branchIf (hR.setReg 31 s.npc h) hc imm16

theorem loadDelayed (r : Reg) {a a' : Word} (ha : a' = a) (w : Width) (x : Word → Word) :
    SameOutcome R (loadDelayed r a w x s) (loadDelayed r a' w x t) := by
  subst ha
  unfold Machine.loadDelayed
  obtain ⟨f, hs, ht⟩ | ⟨v, u, u', hs, ht, hu⟩ := hR.busFetch h a' w
  · rw [hs, ht]
    exact .fault f
  · rw [hs, ht]
    exact .next (hR.setRegDelayed r (x v) hu)

theorem loadMerged (r : Reg) {a a' : Word} (ha : a' = a) (m : Nat → Word → Word → Word) :
    SameOutcome R (loadMerged r a m s) (loadMerged r a' m t) := by
  subst ha
  unfold Machine.loadMerged
  rw [hR.getReg h]
  obtain ⟨f, hs, ht⟩ | ⟨v, u, u', hs, ht, hu⟩ := hR.busFetch h (alignWord a') .word
  · rw [hs, ht]
    exact .fault f
  · rw [hs, ht]
    exact .next (hR.setReg r _ hu)

theorem storeAt {a a' v v' : Word} (ha : a' = a) (hv : v' = v) (w : Width) :
    SameOutcome R (storeAt a w v s) (storeAt a' w v' t) := by
  subst ha hv
  unfold Machine.storeAt
  obtain ⟨f, hs, ht⟩ | ⟨u, u', hs, ht, hu⟩ := hR.busStore h a' w v'
  · rw [hs, ht]
    exact .fault f
  · rw [hs, ht]
    exact .next hu

theorem storeMerged {a a' v v' : Word} (ha : a' = a) (hv : v' = v) (m : Nat → Word → Word → Word) :
    SameOutcome R (storeMerged a m v s) (storeMerged a' m v' t) := by
  subst ha hv
  unfold Machine.storeMerged
  obtain ⟨f, hs, ht⟩ | ⟨x, u, u', hs, ht, hu⟩ := hR.busFetch h (alignWord a') .word
  · rw [hs, ht]
    exact .fault f
  · rw [hs, ht]
    exact hR.storeAt hu rfl rfl .word

theorem gteWord (ins : Word) : SameOutcome R (gteWord ins s) (gteWord ins t) := by
  unfold Machine.gteWord
  rw [hR.devHistory h]
  exact .ite (hR.cu2 h) (.fault _) (hR.raise h _)

/-! ### Every instruction, and the tick -/

omit h in
/-- Steps 6 and 7. -/
theorem finishTick {o o' : Result} (ho : SameOutcome R o o') : SameOutcome R (finishTick o) (finishTick o') := by
  cases ho with
  | next hu => exact .next (hR.retire (hR.commitBanks hu))
  | fault f => exact .fault f

/-- The end of a tick: a host fault halts both states alike (40_tick_pipeline.md R180). -/
theorem settleTick {o o' : Result} (ho : SameOutcome R o o') : SameOutcome R (settleTick s o) (settleTick t o') := by
  cases ho with
  | next hu => exact .next hu
  | fault f => exact .next (hR.haltOn f h)

/-- An instruction does the same in related states, where MFC0 stages a slot only if they agree on it. -/
theorem exec (i : Instr) (hC0 : ∀ r k, i = .mfc0 r k → t.getC0 k = s.getC0 k) :
    SameOutcome R (exec i s) (exec i t) := by
  have hreg := hR.getReg h
  cases i
  case sll | srl | sra | sllv | srlv | srav | addu | subu | and | or | xor | nor | slt | sltu | addiu | slti | sltiu
      | andi | ori | xori | lui =>
    refine hR.writeReg h ?_
    simp only [hreg]
  case mfhi => exact hR.writeReg h (hR.hi h)
  case mflo => exact hR.writeReg h (hR.lo h)
  case mult | multu | div | divu =>
    refine hR.writeHiLo h ?_
    simp only [hreg]
  case mthi rs => exact .next (hreg rs ▸ hR.setHi _ h)
  case mtlo rs => exact .next (hreg rs ▸ hR.setLo _ h)
  case jr rs => exact hR.next_setNpc h (hreg rs)
  case j => exact hR.next_setNpc h (by rw [hR.npc h])
  case jal => exact hR.linkJump h (by rw [hR.npc h])
  case jalr rs rd => exact hR.linkJump h (hreg rs)
  case beq | bne | blez | bgtz | bltz | bgez =>
    refine hR.branchIf h ?_ _
    simp only [hreg]
  case bltzal | bgezal =>
    refine hR.linkBranchIf h ?_ _
    simp only [hreg]
  case syscall | brk | cop1 | cop3 | lwc0 | lwc1 | lwc3 | swc0 | swc1 | swc3 => exact hR.raise h _
  case cop2 | lwc2 | swc2 => exact hR.gteWord h _
  case mfc0 r k => exact .next (hC0 r k rfl ▸ hR.setRegDelayed r _ h)
  case mtc0 r k => exact .next (hreg r ▸ hR.setC0 k _ h)
  case rfe => exact .next (hR.popMode h)
  case add | sub | addi =>
    refine SameOutcome.ite ?_ (hR.raise h _) (hR.writeReg h ?_) <;> simp only [hreg]
  case lb rs rt imm16 | lbu rs rt imm16 => exact hR.loadDelayed h rt (by rw [hreg]) _ _
  case lwl rs rt imm16 | lwr rs rt imm16 => exact hR.loadMerged h rt (by rw [hreg]) _
  case lh rs rt imm16 | lhu rs rt imm16 =>
    exact .ite (by rw [hreg]) (hR.raise h _) (hR.loadDelayed h rt (by rw [hreg]) _ _)
  case lw rs rt imm16 =>
    exact .ite (by rw [hreg]) (hR.raise h _) (.ite (hR.isolate h) (.next h) (hR.loadDelayed h rt (by rw [hreg]) _ _))
  case sb rs rt imm16 => exact .ite (hR.isolate h) (.next h) (hR.storeAt h (by rw [hreg]) (hreg rt) _)
  case sh rs rt imm16 | sw rs rt imm16 =>
    exact .ite (by rw [hreg]) (hR.raise h _)
      (.ite (hR.isolate h) (.next h) (hR.storeAt h (by rw [hreg]) (hreg rt) _))
  case swl rs rt imm16 | swr rs rt imm16 =>
    exact .ite (hR.isolate h) (.next h) (hR.storeMerged h (by rw [hreg]) (hreg rt) _)

theorem executeWord (ins : Word) (hC0 : ∀ r k, decodeWord ins = .ok (.mfc0 r k) → t.getC0 k = s.getC0 k) :
    SameOutcome R (executeWord ins s) (executeWord ins t) := by
  unfold Machine.executeWord
  cases hd : decodeWord ins with
  | error e => exact hR.raise h _
  | ok i => exact hR.exec h i fun r k hi => hC0 r k (hd.trans (congrArg Except.ok hi))

/-- Related states take related steps, where a fetched MFC0 stages a slot they agree on. -/
theorem step (hC0 : ∀ ins u r k, Machine.busFetch s.pc .word s.latchCpc = .ok (ins, u) →
    decodeWord ins = .ok (.mfc0 r k) → t.getC0 k = s.getC0 k) :
    SameOutcome R (step s) (step t) := by
  by_cases hrun : s.runState = .running
  · rw [step_running hrun, step_running ((hR.runState h).trans hrun)]
    refine hR.settleTick h ?_
    have hpc := hR.pc h
    cases hmis : misaligned s.pc .word with
    | true =>
      rw [tickBody_misaligned hmis, tickBody_misaligned (hpc ▸ hmis)]
      exact .next (hR.throwException _ (hR.latchCpc h))
    | false =>
      obtain ⟨f, hs, ht⟩ | ⟨ins, u, u', hs, ht, hu⟩ := hR.busFetch (hR.latchCpc h) s.pc .word
      · rw [tickBody_fetch_fault hmis hs, tickBody_fetch_fault (hpc ▸ hmis) (hpc ▸ ht)]
        exact .fault f
      · rw [tickBody_fetched hmis hs, tickBody_fetched (hpc ▸ hmis) (hpc ▸ ht)]
        refine hR.finishTick (hR.executeWord (hR.commitLoad (hR.advance hu)) ins fun r k hd => ?_)
        obtain ⟨_, rfl⟩ := busFetch_frame hs
        obtain ⟨_, rfl⟩ := busFetch_frame ht
        exact hC0 ins _ r k hs hd
  · rw [step_not_running hrun, step_not_running ((hR.runState h).symm ▸ hrun)]
    exact .next h

end Congruence

/-! ## The instruction counter (10_state.md R48) -/

/-- `t` is `s` with `d` added to the counter. -/
def CounterAhead (d : Word) (s t : State) : Prop := t = { s with instrExecCnt := s.instrExecCnt + d }

theorem counterAhead_congruence (d : Word) : Congruence (CounterAhead d) := by
  constructor
  case retire =>
    rintro s _ rfl
    exact congrArg (fun n => { s.retire with instrExecCnt := n }) (add_right_comm s.instrExecCnt d 1)
  case haltOn =>
    rintro s _ ⟨r, hist⟩ rfl
    rfl
  all_goals
    intros
    rename_i h
    obtain rfl := h
    rfl

/-- Settles O46: states that differ in the counter alone take the same step, whose counters differ by as much. -/
theorem counterIsInvisible : Obligations.CounterIsInvisible := by
  intro s t d h
  have hstep := (counterAhead_congruence d).step (s := s) rfl fun _ _ _ _ _ _ => rfl
  rw [h] at hstep
  obtain ⟨v, hv, rfl⟩ := hstep.of_next
  exact hv

/-! ## SR outside bits 16, 22 and 30 (10_state.md R43) -/

/-- The statement's change of SR is a write of COP0 slot 12. -/
theorem withSr_eq (s : State) (sr : Word) : withSr s sr = s.setC0 srSlot sr := rfl

theorem State.getC0_setC0_same (s : State) (k : Reg) (v : Word) : (s.setC0 k v).getC0 k = v :=
  (s.getC0_setC0 k k v).trans (if_pos rfl)

theorem State.getC0_setC0_of_ne (s : State) {k n : Reg} (v : Word) (h : k ≠ n) : (s.setC0 n v).getC0 k = s.getC0 k :=
  (s.getC0_setC0 n k v).trans (if_neg h)

theorem State.setC0_setC0_same (s : State) (k : Reg) (v w : Word) : (s.setC0 k v).setC0 k w = s.setC0 k w :=
  congrArg (fun f => { s with c0regs := f }) (Vector.set_set ..)

theorem State.setC0_setC0_comm (s : State) {k n : Reg} (v w : Word) (h : k ≠ n) :
    (s.setC0 k v).setC0 n w = (s.setC0 n w).setC0 k v :=
  congrArg (fun f => { s with c0regs := f }) (Vector.set_comm v w (fun e => h (Fin.ext e)))

/-- A one-bit field is that bit. -/
theorem bits_one_eq_getLsbD (v : Word) (k : Nat) : decide (bits v k 1 = 1) = v.getLsbD k :=
  (Nat.testBit_eq_decide_div_mod_eq ..).symm

/-- MTC0 to SR overwrites the other value. -/
theorem setC0_sr_withSr (s : State) (sr v : Word) :
    (withSr s sr).setC0 srSlot v = withSr (s.setC0 srSlot v) v := by
  rw [withSr_eq, withSr_eq, State.setC0_setC0_same, State.setC0_setC0_same]

theorem srAgrees_setC0_sr (s : State) (v : Word) : SrAgrees (s.setC0 srSlot v) v := by
  have hsr : (s.setC0 srSlot v).getC0 12 = v := s.getC0_setC0_same srSlot v
  unfold SrAgrees srBit
  rw [hsr]
  exact ⟨rfl, rfl, rfl⟩

/-- A change of SR that keeps the three bits keeps agreement. -/
theorem srAgrees_map {s t : State} {sr : Word} (f : Word → Word) (h : SrAgrees s sr)
    (hf : ∀ v, (f v).getLsbD 16 = v.getLsbD 16 ∧ (f v).getLsbD 22 = v.getLsbD 22 ∧ (f v).getLsbD 30 = v.getLsbD 30)
    (ht : t.getC0 12 = f (s.getC0 12)) : SrAgrees t (f sr) := by
  obtain ⟨h16, h22, h30⟩ := h
  obtain ⟨a16, a22, a30⟩ := hf sr
  obtain ⟨b16, b22, b30⟩ := hf (s.getC0 12)
  unfold SrAgrees srBit
  rw [ht, a16, a22, a30, b16, b22, b30]
  exact ⟨h16, h22, h30⟩

theorem pushModeStack_highBits (v : Word) : (pushModeStack v).getLsbD 16 = v.getLsbD 16 ∧
    (pushModeStack v).getLsbD 22 = v.getLsbD 22 ∧ (pushModeStack v).getLsbD 30 = v.getLsbD 30 := by
  simp [pushModeStack]

theorem popModeStack_highBits (v : Word) : (popModeStack v).getLsbD 16 = v.getLsbD 16 ∧
    (popModeStack v).getLsbD 22 = v.getLsbD 22 ∧ (popModeStack v).getLsbD 30 = v.getLsbD 30 := by
  simp [popModeStack]

section withSr

variable {s : State} {sr : Word} (h : SrAgrees s sr)

include h

theorem withSr_isolate : (withSr s sr).isolate = s.isolate := by
  obtain ⟨hIsC, -, -⟩ := h
  unfold State.isolate
  rw [bits_one_eq_getLsbD, bits_one_eq_getLsbD, withSr_eq, State.getC0_setC0_same]
  exact hIsC

theorem withSr_bev : (withSr s sr).bev = s.bev := by
  obtain ⟨-, hBEV, -⟩ := h
  unfold State.bev
  rw [bits_one_eq_getLsbD, bits_one_eq_getLsbD, withSr_eq, State.getC0_setC0_same]
  exact hBEV

theorem withSr_cu2 : (withSr s sr).cu2 = s.cu2 := by
  obtain ⟨-, -, hCU2⟩ := h
  unfold State.cu2
  rw [bits_one_eq_getLsbD, bits_one_eq_getLsbD, withSr_eq, State.getC0_setC0_same]
  exact hCU2

/-- An exception pushes the mode stack of the other SR, and goes to the same handler with the same Cause and EPC. -/
theorem throwException_withSr (c : Cause) :
    throwException c (withSr s sr) = withSr (throwException c s) (pushModeStack sr) := by
  have hc0 : (throwException c (withSr s sr)).c0regs = (withSr (throwException c s) (pushModeStack sr)).c0regs := by
    apply regFile_ext
    intro k
    show (throwException c (withSr s sr)).getC0 k = (withSr (throwException c s) (pushModeStack sr)).getC0 k
    rw [withSr_eq, withSr_eq]
    by_cases hk : k = srSlot
    · subst hk
      rw [State.getC0_setC0_same]
      exact (throwException_getC0 _ c srSlot).trans (congrArg pushModeStack (s.getC0_setC0_same srSlot sr))
    · rw [State.getC0_setC0_of_ne _ _ hk, throwException_getC0, throwException_getC0,
        State.getC0_setC0_of_ne _ _ hk, if_neg hk, if_neg hk]
      rfl
  calc throwException c (withSr s sr)
      = { s with c0regs := (throwException c (withSr s sr)).c0regs, pc := exceptionVector (withSr s sr).bev,
                 npc := exceptionVector (withSr s sr).bev + 4 } := rfl
    _ = withSr (throwException c s) (pushModeStack sr) := by
      rw [hc0, withSr_bev h]
      rfl

end withSr

/-- `t` is `s` but for SR, and there they agree on the bits that rules read. -/
def SrDiffers (s t : State) : Prop := ∃ sr, t = withSr s sr ∧ SrAgrees s sr

theorem SrDiffers.setC0 {s t : State} (k : Reg) (v : Word) (h : SrDiffers s t) :
    SrDiffers (s.setC0 k v) (t.setC0 k v) := by
  obtain ⟨sr, rfl, h⟩ := h
  by_cases hk : k = srSlot
  · subst hk
    exact ⟨v, setC0_sr_withSr s sr v, srAgrees_setC0_sr s v⟩
  · refine ⟨sr, ?_, ?_⟩
    · rw [withSr_eq, withSr_eq, State.setC0_setC0_comm s sr v (Ne.symm hk)]
    · have hsr : (s.setC0 k v).getC0 12 = s.getC0 12 := s.getC0_setC0_of_ne v (Ne.symm hk)
      unfold SrAgrees srBit
      rw [hsr]
      exact h

theorem SrDiffers.popMode {s t : State} (h : SrDiffers s t) : SrDiffers s.popMode t.popMode := by
  obtain ⟨sr, rfl, h⟩ := h
  refine ⟨popModeStack sr, ?_, srAgrees_map popModeStack h popModeStack_highBits (s.getC0_popMode 12)⟩
  unfold State.popMode
  rw [setC0_sr_withSr, withSr_eq s sr, State.getC0_setC0_same, withSr_eq, withSr_eq, State.setC0_setC0_same,
    State.setC0_setC0_same]

theorem srDiffers_congruence : Congruence SrDiffers := by
  constructor
  case isolate =>
    rintro s _ ⟨sr, rfl, h⟩
    exact withSr_isolate h
  case cu2 =>
    rintro s _ ⟨sr, rfl, h⟩
    exact withSr_cu2 h
  case setC0 => exact SrDiffers.setC0
  case popMode => exact SrDiffers.popMode
  case throwException =>
    rintro s _ c ⟨sr, rfl, h⟩
    exact ⟨_, throwException_withSr h c,
      srAgrees_map pushModeStack h pushModeStack_highBits (throwException_getC0 s c 12)⟩
  case haltOn =>
    rintro s _ ⟨r, hist⟩ ⟨sr, rfl, h⟩
    exact ⟨sr, rfl, h⟩
  case inRegs | hi | lo | pc | npc | runState | platform | mem | devHistory =>
    rintro s _ ⟨sr, rfl, -⟩
    rfl
  all_goals
    intros
    rename_i h
    obtain ⟨sr, rfl, h⟩ := h
    exact ⟨sr, rfl, h⟩

/-- `exec` in a state with another SR, the instruction being no MFC0 of SR. -/
theorem exec_withSr {i : Instr} {s : State} {sr : Word} (hi : ∀ rt, i ≠ .mfc0 rt 12) (h : SrAgrees s sr) :
    SameOutcome SrDiffers (exec i s) (exec i (withSr s sr)) := by
  refine srDiffers_congruence.exec ⟨sr, rfl, h⟩ i fun r k hik => s.getC0_setC0_of_ne (n := srSlot) sr ?_
  rintro rfl
  exact hi r hik

/-- `step` in a state with another SR, the fetched word being no MFC0 of SR. -/
theorem step_withSr {s : State} {sr : Word} (h : SrAgrees s sr)
    (hf : ∀ w u rt, busFetch s.pc .word s.latchCpc = .ok (w, u) → decodeWord w ≠ .ok (.mfc0 rt 12)) :
    SameOutcome SrDiffers (step s) (step (withSr s sr)) := by
  refine srDiffers_congruence.step ⟨sr, rfl, h⟩ fun w u r k hw hd => s.getC0_setC0_of_ne (n := srSlot) sr ?_
  rintro rfl
  exact hf w u r hw hd

/-- Settles O47: states that differ in SR outside the three bits alone stay so, and MTC0 to SR makes them equal. -/
theorem statusStorageBitsAreNotRead : Obligations.StatusStorageBitsAreNotRead := by
  refine ⟨fun i s sr hi hsr => ⟨fun t ht => ?_, fun f hf => ?_⟩, fun s t sr hsr hf ht => ?_⟩
  · by_cases hm : ∃ rt, i = .mtc0 rt 12
    · obtain ⟨rt, rfl⟩ := hm
      obtain rfl := Host.Outcome.next.inj ht
      exact ⟨s.getReg rt, congrArg Host.Outcome.next (setC0_sr_withSr s sr _), srAgrees_setC0_sr s _,
        fun _ _ => (s.getC0_setC0_same srSlot _).symm⟩
    · have hexec := exec_withSr hi hsr
      rw [ht] at hexec
      obtain ⟨_, hv, sr', rfl, hagree⟩ := hexec.of_next
      exact ⟨sr', hv, hagree, fun rt hrt => absurd ⟨rt, hrt⟩ hm⟩
  · have hexec := exec_withSr hi hsr
    rw [hf] at hexec
    exact hexec.of_fault
  · have hstep := step_withSr hsr hf
    rw [ht] at hstep
    obtain ⟨_, hv, sr', rfl, hagree⟩ := hstep.of_next
    exact ⟨sr', hv, hagree⟩

end Sys2Proof.Machine

namespace Sys2Proof.Machine

/-! ## Address translation (20_memory.md R81, R82) -/

theorem toNat_and_segmentMask (a : Word) :
    (0x7FFFFFFF &&& a : Word).toNat = a.toNat % 2 ^ 31 ∧ (0x1FFFFFFF &&& a : Word).toNat = a.toNat % 2 ^ 29 ∧
      (0xFFFFFFFF &&& a : Word) = a := by
  refine ⟨?_, ?_, BitVec.allOnes_and⟩
  · rw [BitVec.and_comm, BitVec.toNat_and]
    exact Nat.and_two_pow_sub_one_eq_mod a.toNat 31
  · rw [BitVec.and_comm, BitVec.toNat_and]
    exact Nat.and_two_pow_sub_one_eq_mod a.toNat 29

/-- KSEG0 and KSEG1 translate to the offset in the segment, every other address to itself. -/
theorem toNat_translateAddr (a : Word) :
    (translateAddr a).toNat =
      if 0x80000000 ≤ a.toNat ∧ a.toNat < 0xA0000000 then a.toNat - 0x80000000
      else if 0xA0000000 ≤ a.toNat ∧ a.toNat < 0xC0000000 then a.toNat - 0xA0000000
      else a.toNat := by
  obtain ⟨hkseg0, hkseg1, hother⟩ := toNat_and_segmentMask a
  have htop : bits a 29 3 = a.toNat / 2 ^ 29 := by
    have := a.isLt
    unfold bits
    omega
  unfold translateAddr segmentMask
  rw [htop]
  split
  · rw [hkseg0, if_pos (by omega)]
    omega
  · rw [hkseg1, if_neg (by omega), if_pos (by omega)]
    omega
  · rename_i hne4 hne5
    rw [hother, if_neg (by have : a.toNat / 2 ^ 29 ≠ 4 := hne4; omega),
      if_neg (by have : a.toNat / 2 ^ 29 ≠ 5 := hne5; omega)]

/-- Settles O50: the translation as arithmetic, with the case each address falls in. -/
theorem segmentTranslation : Obligations.SegmentTranslation := by
  refine ⟨fun a => ⟨fun h => ?_, fun hlo hhi => ?_, fun hlo hhi => ?_, fun h => ?_⟩, fun a h => ⟨?_, ?_, ?_⟩⟩
  · exact BitVec.eq_of_toNat_eq (by rw [toNat_translateAddr, if_neg (by omega), if_neg (by omega)])
  · rw [toNat_translateAddr, if_pos ⟨hlo, hhi⟩]
  · rw [toNat_translateAddr, if_neg (by omega), if_pos ⟨hlo, hhi⟩]
  · exact BitVec.eq_of_toNat_eq (by rw [toNat_translateAddr, if_neg (by omega), if_neg (by omega)])
  · exact BitVec.eq_of_toNat_eq (by rw [toNat_translateAddr, if_neg (by omega), if_neg (by omega)])
  · apply BitVec.eq_of_toNat_eq
    rw [toNat_translateAddr, if_pos (by bv_omega)]
    bv_omega
  · apply BitVec.eq_of_toNat_eq
    rw [toNat_translateAddr, if_neg (by bv_omega), if_pos (by bv_omega)]
    bv_omega

/-! ## Routing (20_memory.md R87 to R89, R95, R96) -/

/-- Routing is the library's search for the first entry that passes the range test. -/
theorem route_eq_find? (bs : List Binding) (p : Word) : route bs p = bs.find? (bindingContains · p) := by
  induction bs with
  | nil => rfl
  | cons b rest ih =>
    rw [route, List.find?_cons, ih]
    cases bindingContains b p <;> rfl

theorem route_eq_none_iff {bs : List Binding} {p : Word} :
    route bs p = none ↔ ∀ c ∈ bs, ¬(p - c.start).toNat < c.size.toNat := by
  rw [route_eq_find?, List.find?_eq_none]
  simp [bindingContains]

theorem route_eq_some_iff {bs : List Binding} {p : Word} {b : Binding} :
    route bs p = some b ↔ ∃ pre post, bs = pre ++ b :: post ∧ (p - b.start).toNat < b.size.toNat ∧
      ∀ c ∈ pre, ¬(p - c.start).toNat < c.size.toNat := by
  rw [route_eq_find?, List.find?_eq_some_iff_append]
  simp only [bindingContains, decide_eq_true_eq, Bool.not_eq_true', decide_eq_false_iff_not]
  constructor
  · rintro ⟨hb, pre, post, hbs, hpre⟩
    exact ⟨pre, post, hbs, hb, hpre⟩
  · rintro ⟨pre, post, hbs, hb, hpre⟩
    exact ⟨hb, pre, post, hbs, hpre⟩

/-- Settles O51: routing as the library's search. -/
theorem firstMatchRouting : Obligations.FirstMatchRouting :=
  fun _ _ => ⟨fun _ => route_eq_some_iff, route_eq_none_iff⟩

/-- Settles O52: an address is in no range of R95 exactly when it is in one of the gaps. -/
theorem defaultPlatformHoles : Obligations.DefaultPlatformHoles := by
  intro p
  rw [route_eq_none_iff]
  simp only [defaultPlatform, List.forall_mem_cons, List.not_mem_nil, false_imp_iff, implies_true, and_true,
    hardregBinding, ramBinding, scratchpadBinding, expansion1Binding, biosBinding]
  bv_omega

/-! ## Little-endian values (20_memory.md R98) -/

theorem wordOfBytes_one_byteOf (v : Word) (j : Nat) : wordOfBytes (byteOf v j) 0 0 0 = (v >>> (8 * j)) &&& 0xFF := by
  apply BitVec.eq_of_toNat_eq
  rw [wordOfBytes_toNat, byteOf_toNat, BitVec.toNat_and, BitVec.toNat_ushiftRight, Nat.shiftRight_eq_div_pow]
  exact (Nat.and_two_pow_sub_one_eq_mod _ 8).symm

theorem wordOfBytes_low_byteOf (v : Word) : wordOfBytes (byteOf v 0) (byteOf v 1) 0 0 = v &&& 0xFFFF := by
  apply BitVec.eq_of_toNat_eq
  have hmod : (v &&& 0xFFFF).toNat = v.toNat % 2 ^ 16 := Nat.and_two_pow_sub_one_eq_mod v.toNat 16
  rw [wordOfBytes_toNat, byteOf_toNat, byteOf_toNat, hmod]
  bv_omega

theorem wordOfBytes_high_byteOf (v : Word) : wordOfBytes (byteOf v 2) (byteOf v 3) 0 0 = v >>> 16 := by
  apply BitVec.eq_of_toNat_eq
  have := v.isLt
  rw [wordOfBytes_toNat, byteOf_toNat, byteOf_toNat, BitVec.toNat_ushiftRight, Nat.shiftRight_eq_div_pow]
  bv_omega

/-- Settles O53: every read is made of the bytes that the store placed. -/
theorem littleEndianReadBack : Obligations.LittleEndianReadBack := by
  intro m c v hm
  have hbyte (j : Nat) (hj : j < 4) : (m.writeLE c v .word).read (c + j) = byteOf v j :=
    Memory.read_writeLE_inside hm c v .word hj
  refine ⟨Memory.readLE_writeLE_word hm c v, fun j hj => ?_, ?_, ?_, Memory.wf_writeLE hm,
    fun k hk => Memory.read_writeLE_other m c v .word hk⟩
  · rw [Memory.readLE, hbyte j hj, wordOfBytes_one_byteOf]
  · rw [Memory.readLE, hbyte 1 (by decide)]
    exact (congrArg (wordOfBytes · _ 0 0) (hbyte 0 (by decide))).trans (wordOfBytes_low_byteOf v)
  · rw [Memory.readLE, hbyte 2 (by decide), Nat.add_assoc, hbyte 3 (by decide), wordOfBytes_high_byteOf]

/-! ## Where a store can write (20_memory.md R95, R98, R99) -/

theorem misaligned_eq_false_iff {a : Word} {w : Width} : misaligned a w = false ↔ a.toNat % widthBytes w = 0 := by
  cases w with
  | byte => exact ⟨fun _ => Nat.mod_one _, fun _ => rfl⟩
  | half | word => simp [misaligned, bits, widthBytes]

/-- An aligned access whose first byte is in a word-aligned range ends in the range too (92_eei_decisions.md D13). -/
theorem access_within_range {b : Binding} {p : Word} {w : Width} (hb : bindingAligned b = true)
    (hp : misaligned p w = false) (hin : (p - b.start).toNat < b.size.toNat) :
    (p - b.start).toNat + widthBytes w ≤ b.size.toNat := by
  have hp := misaligned_eq_false_iff.1 hp
  obtain ⟨hstart, hsize⟩ : b.start.toNat % 4 = 0 ∧ b.size.toNat % 4 = 0 := by
    simpa [bindingAligned, bits] using hb
  rw [BitVec.toNat_sub] at hin ⊢
  cases w <;> simp only [widthBytes] at hp ⊢ <;> omega

/-- A store leaves memory alone, or writes inside the storage of the memory device it was routed to. -/
theorem busStore_mem {a : Word} {w : Width} {v : Word} {s t : State} (h : busStore a w v s = .ok t) :
    t.mem = s.mem ∨ ∃ b base, route s.platform (translateAddr a) = some b ∧ b.device = .memory base ∧
      misaligned (translateAddr a) w = false ∧ t.mem = s.mem.writeLE (base + (translateAddr a - b.start).toNat) v w := by
  obtain ⟨b, hr, rfl⟩ := busStore_ok_iff.1 h
  obtain ⟨ha, hroute, -⟩ := busRoute_ok_iff.1 hr
  obtain ⟨base, hb, e⟩ | ⟨base, -, e⟩ | ⟨id, -, e⟩ := deviceStore_state b (translateAddr a - b.start) w v s
  · exact .inr ⟨b, base, hroute, hb, (misaligned_translateAddr a w).trans ha, by rw [e]; rfl⟩
  · exact .inl (by rw [e])
  · exact .inl (by rw [e]; rfl)

/-- On a word-aligned platform a store leaves alone every byte outside the storage of the memory devices. -/
theorem busStore_read_outside {a : Word} {w : Width} {v : Word} {s t : State} {k : Nat} (h : busStore a w v s = .ok t)
    (hp : platformAligned s.platform = true)
    (hk : ∀ b ∈ s.platform, ∀ base, b.device = .memory base → k < base ∨ base + b.size.toNat ≤ k) :
    t.mem.read k = s.mem.read k := by
  obtain hm | ⟨b, base, hroute, hb, ha, hm⟩ := busStore_mem h
  · rw [hm]
  · obtain ⟨pre, post, hbs, hin, -⟩ := route_eq_some_iff.1 hroute
    have hmem : b ∈ s.platform := by simp [hbs]
    have hend := access_within_range (List.all_eq_true.1 hp b hmem) ha hin
    have hout := hk b hmem base hb
    rw [hm]
    exact Memory.read_writeLE_other _ _ _ _ (by omega)

/-- An instruction leaves memory alone, or what it leaves there is what one bus store left. -/
theorem Effect.mem_eq_or_store {i : Instr} {s t : State} (h : Effect i s t) :
    t.mem = s.mem ∨ ∃ a w v u, u.mem = s.mem ∧ u.platform = s.platform ∧ busStore a w v u = .ok t := by
  cases h with
  | load _ _ _ _ _ _ hf | merge _ _ _ _ _ hf =>
    obtain ⟨_, rfl⟩ := busFetch_frame hf
    exact .inl rfl
  | store a w v _ hs => exact .inr ⟨a, w, v, s, rfl, rfl, hs⟩
  | mergeStore a _ u v _ hf hs =>
    obtain ⟨_, rfl⟩ := busFetch_frame hf
    exact .inr ⟨a, .word, v, _, by rfl, by rfl, hs⟩
  | _ => exact .inl rfl

/-- A tick changes memory only by its instruction's effect, and keeps the platform. -/
theorem step_platform_mem {s t : State} (h : step s = .next t) :
    t.platform = s.platform ∧ (t.mem = s.mem ∨ ∃ i u v, Effect i u v ∧ u.mem = s.mem ∧ u.platform = s.platform ∧
      t.mem = v.mem) := by
  obtain ⟨-, rfl⟩ | ⟨-, -, rfl⟩ | ⟨-, -, ⟨r, hist⟩, -, rfl⟩ | ⟨-, -, ins, u, v, hf, hv, rfl⟩ := step_cases h
  · exact ⟨rfl, .inl rfl⟩
  · exact ⟨rfl, .inl rfl⟩
  · exact ⟨rfl, .inl rfl⟩
  · obtain ⟨_, rfl⟩ := busFetch_frame hf
    obtain ⟨i, he⟩ := executeWord_effect hv
    exact ⟨he.sameFixedFields.platform, .inr ⟨i, _, v, he, rfl, rfl, rfl⟩⟩

/-- On a word-aligned platform a tick leaves alone every byte outside the storage of the memory devices. -/
theorem step_read_outside {s t : State} {k : Nat} (h : step s = .next t) (hp : platformAligned s.platform = true)
    (hk : ∀ b ∈ s.platform, ∀ base, b.device = .memory base → k < base ∨ base + b.size.toNat ≤ k) :
    t.mem.read k = s.mem.read k := by
  obtain ⟨-, hm | ⟨i, u, v, he, hum, hup, hm⟩⟩ := step_platform_mem h
  · rw [hm]
  · rw [hm, ← hum]
    obtain hv | ⟨a, w, x, u', hm', hp', hs⟩ := he.mem_eq_or_store
    · rw [hv]
    · rw [← hm']
      rw [← hup, ← hp'] at hp hk
      exact busStore_read_outside hs hp hk

/-- Settles O49: of the default platform's devices only RAM and the scratchpad are memory devices. -/
theorem onlyRamAndScratchpadChange : Obligations.OnlyRamAndScratchpadChange := by
  intro s t hs h
  refine ⟨(step_platform_mem h).1.trans hs, fun k hram hpad => step_read_outside h (by rw [hs]; decide) ?_⟩
  rw [hs]
  simp only [defaultPlatform, List.forall_mem_cons, List.not_mem_nil, false_imp_iff, implies_true, and_true,
    hardregBinding, ramBinding, scratchpadBinding, expansion1Binding, biosBinding, Device.memory.injEq,
    reduceCtorEq, forall_eq', true_and]
  refine ⟨?_, ?_⟩
  · show k < 0 ∨ 0 + 0x200000 ≤ k
    omega
  · show k < 0x1F800000 ∨ 0x1F800000 + 0x400 ≤ k
    omega

end Sys2Proof.Machine

namespace Sys2Proof.Machine

open Sys2Proof.Claims

/-! ## The bytes of a merged word (43_loadstore.md R291 to R294) -/

section bytes

variable {v w : Word} {j n : Nat}

theorem wordByte_or : wordByte (v ||| w) j = wordByte v j ||| wordByte w j := BitVec.extractLsb'_or

theorem wordByte_and_of_full (h : wordByte w j = BitVec.allOnes 8) : wordByte (v &&& w) j = wordByte v j :=
  BitVec.extractLsb'_and.trans ((congrArg (wordByte v j &&& ·) h).trans BitVec.and_allOnes)

theorem wordByte_and_of_zero (h : wordByte w j = 0) : wordByte (v &&& w) j = 0 :=
  BitVec.extractLsb'_and.trans ((congrArg (wordByte v j &&& ·) h).trans BitVec.and_zero)

/-- A left shift by whole bytes moves each byte up. -/
theorem wordByte_shiftLeft (hn : n % 8 = 0) :
    wordByte (v <<< n) j = if j < 4 ∧ n ≤ 8 * j then wordByte v (j - n / 8) else 0 := by
  apply BitVec.eq_of_getLsbD_eq
  intro i hi
  split
  · have e : 8 * j + i - n = 8 * (j - n / 8) + i := by omega
    simp [wordByte, hi, e]
    omega
  · simp [wordByte, hi]
    omega

/-- A right shift by whole bytes moves each byte down. -/
theorem wordByte_ushiftRight (hn : n % 8 = 0) : wordByte (v >>> n) j = wordByte v (j + n / 8) := by
  apply BitVec.eq_of_getLsbD_eq
  intro i hi
  have e : n + (8 * j + i) = 8 * (j + n / 8) + i := by omega
  simp [wordByte, hi, e]

theorem wordByte_eq_zero (hj : 4 ≤ j) : wordByte v j = 0 := by
  apply BitVec.eq_of_getLsbD_eq
  intro i hi
  simpa [wordByte] using fun _ => BitVec.getLsbD_of_ge v (8 * j + i) (by omega)

end bytes

section merges

variable {w v : Word} {lane j : Nat} (hlane : lane < 4) (hj : j < 4)

include hlane hj

theorem wordByte_mergeLwl :
    wordByte (mergeLwl lane w v) j = if 3 ≤ j + lane then wordByte w (j + lane - 3) else wordByte v j := by
  interval_cases lane <;> interval_cases j <;>
    simp (disch := decide) [mergeLwl, wordByte_or, wordByte_and_of_full, wordByte_and_of_zero, wordByte_shiftLeft]

theorem wordByte_mergeLwr :
    wordByte (mergeLwr lane w v) j = if j + lane ≤ 3 then wordByte w (j + lane) else wordByte v j := by
  interval_cases lane <;> interval_cases j <;>
    simp (disch := decide) [mergeLwr, wordByte_or, wordByte_and_of_full, wordByte_and_of_zero, wordByte_ushiftRight,
      wordByte_eq_zero]

theorem wordByte_mergeSwl :
    wordByte (mergeSwl lane w v) j = if j ≤ lane then wordByte v (3 + j - lane) else wordByte w j := by
  interval_cases lane <;> interval_cases j <;>
    simp (disch := decide) [mergeSwl, wordByte_or, wordByte_and_of_full, wordByte_and_of_zero, wordByte_ushiftRight,
      wordByte_eq_zero]

theorem wordByte_mergeSwr :
    wordByte (mergeSwr lane w v) j = if lane ≤ j then wordByte v (j - lane) else wordByte w j := by
  interval_cases lane <;> interval_cases j <;>
    simp (disch := decide) [mergeSwr, wordByte_or, wordByte_and_of_full, wordByte_and_of_zero, wordByte_shiftLeft]

end merges

/-! ## Loads and stores that reach the bus, in the words of the statements -/

theorem not_misaligned {a : Word} {w : Width} (h : a.toNat % widthBytes w = 0) : ¬misaligned a w = true :=
  Bool.eq_false_iff.1 (misaligned_eq_false_iff.2 h)

theorem isolate_eq_srBit (s : State) : s.isolate = srBit s 16 := bits_one_eq_getLsbD (s.getC0 srSlot) 16

theorem not_isolate {s : State} (h : srBit s 16 = false) : ¬s.isolate = true :=
  Bool.eq_false_iff.1 ((isolate_eq_srBit s).trans h)

section bodies

variable {s : State} {rs rt : Reg} {imm : BitVec 16}

theorem misaligned_eaWord : misaligned (eaWord s rs imm) .word = false := misaligned_alignWord (ea s rs imm)

theorem bits_ea_eq_lane : bits (ea s rs imm) 0 2 = lane s rs imm := by simp [bits, lane]

theorem lane_lt : lane s rs imm < 4 := Nat.mod_lt _ (by decide)

theorem exec_lb : exec (.lb rs rt imm) s = loadDelayed rt (ea s rs imm) .byte sextByte s := rfl

theorem exec_lbu : exec (.lbu rs rt imm) s = loadDelayed rt (ea s rs imm) .byte zextByte s := rfl

theorem exec_lh_of_aligned (ha : (ea s rs imm).toNat % 2 = 0) :
    exec (.lh rs rt imm) s = loadDelayed rt (ea s rs imm) .half sextHalf s := if_neg (not_misaligned ha)

theorem exec_lhu_of_aligned (ha : (ea s rs imm).toNat % 2 = 0) :
    exec (.lhu rs rt imm) s = loadDelayed rt (ea s rs imm) .half zextHalf s := if_neg (not_misaligned ha)

theorem exec_lw_of_aligned (ha : (ea s rs imm).toNat % 4 = 0) (hi : srBit s 16 = false) :
    exec (.lw rs rt imm) s = loadDelayed rt (ea s rs imm) .word id s :=
  (if_neg (not_misaligned ha)).trans (if_neg (not_isolate hi))

theorem exec_lwl : exec (.lwl rs rt imm) s = loadMerged rt (ea s rs imm) mergeLwl s := rfl

theorem exec_lwr : exec (.lwr rs rt imm) s = loadMerged rt (ea s rs imm) mergeLwr s := rfl

theorem exec_sb_of_not_isolated (hi : srBit s 16 = false) :
    exec (.sb rs rt imm) s = storeAt (ea s rs imm) .byte (s.getReg rt) s := if_neg (not_isolate hi)

theorem exec_sh_of_aligned (ha : (ea s rs imm).toNat % 2 = 0) (hi : srBit s 16 = false) :
    exec (.sh rs rt imm) s = storeAt (ea s rs imm) .half (s.getReg rt) s :=
  (if_neg (not_misaligned ha)).trans (if_neg (not_isolate hi))

theorem exec_sw_of_aligned (ha : (ea s rs imm).toNat % 4 = 0) (hi : srBit s 16 = false) :
    exec (.sw rs rt imm) s = storeAt (ea s rs imm) .word (s.getReg rt) s :=
  (if_neg (not_misaligned ha)).trans (if_neg (not_isolate hi))

theorem exec_swl_of_not_isolated (hi : srBit s 16 = false) :
    exec (.swl rs rt imm) s = storeMerged (ea s rs imm) mergeSwl (s.getReg rt) s := if_neg (not_isolate hi)

theorem exec_swr_of_not_isolated (hi : srBit s 16 = false) :
    exec (.swr rs rt imm) s = storeMerged (ea s rs imm) mergeSwr (s.getReg rt) s := if_neg (not_isolate hi)

end bodies

/-! ## An access the bus refuses (20_memory.md R89, R90) -/

/-- The shared body `o` that makes a first access of this kind, address and width; the flag says whether it stores to
the fetched word as well. -/
inductive AccessBody (s : State) (o : Result) : AccessKind → Word → Width → Bool → Prop where
  | load (rt : Reg) (a : Word) (w : Width) (ext : Word → Word) (h : o = loadDelayed rt a w ext s) :
      AccessBody s o .fetch a w false
  | mergeLoad (rt : Reg) (a : Word) (merge : Nat → Word → Word → Word) (h : o = loadMerged rt a merge s) :
      AccessBody s o .fetch (alignWord a) .word false
  | store (a : Word) (w : Width) (v : Word) (h : o = storeAt a w v s) : AccessBody s o .store a w false
  | mergeStore (a : Word) (merge : Nat → Word → Word → Word) (v : Word) (h : o = storeMerged a merge v s) :
      AccessBody s o .fetch (alignWord a) .word true

/-- An instruction with a first access is aligned there, and its meaning is one of the four bodies. -/
theorem exec_accessBody {i : Instr} {s : State} {k : AccessKind} {a : Word} {w : Width}
    (h : firstAccess s i = some (k, a, w)) : misaligned a w = false ∧ AccessBody s (exec i s) k a w (mergesStore i) := by
  cases i
  case lb => cases h; exact ⟨rfl, .load _ _ _ _ exec_lb⟩
  case lbu => cases h; exact ⟨rfl, .load _ _ _ _ exec_lbu⟩
  case lwl => cases h; exact ⟨misaligned_eaWord, .mergeLoad _ _ _ exec_lwl⟩
  case lwr => cases h; exact ⟨misaligned_eaWord, .mergeLoad _ _ _ exec_lwr⟩
  case lh =>
    obtain ⟨ha, ⟨⟩⟩ := Option.ite_none_right_eq_some.1 h
    exact ⟨misaligned_eq_false_iff.2 ha, .load _ _ _ _ (exec_lh_of_aligned ha)⟩
  case lhu =>
    obtain ⟨ha, ⟨⟩⟩ := Option.ite_none_right_eq_some.1 h
    exact ⟨misaligned_eq_false_iff.2 ha, .load _ _ _ _ (exec_lhu_of_aligned ha)⟩
  case lw =>
    obtain ⟨⟨ha, hi⟩, ⟨⟩⟩ := Option.ite_none_right_eq_some.1 h
    exact ⟨misaligned_eq_false_iff.2 ha, .load _ _ _ _ (exec_lw_of_aligned ha hi)⟩
  case sb =>
    obtain ⟨hi, ⟨⟩⟩ := Option.ite_none_right_eq_some.1 h
    exact ⟨rfl, .store _ _ _ (exec_sb_of_not_isolated hi)⟩
  case sh =>
    obtain ⟨⟨ha, hi⟩, ⟨⟩⟩ := Option.ite_none_right_eq_some.1 h
    exact ⟨misaligned_eq_false_iff.2 ha, .store _ _ _ (exec_sh_of_aligned ha hi)⟩
  case sw =>
    obtain ⟨⟨ha, hi⟩, ⟨⟩⟩ := Option.ite_none_right_eq_some.1 h
    exact ⟨misaligned_eq_false_iff.2 ha, .store _ _ _ (exec_sw_of_aligned ha hi)⟩
  case swl =>
    obtain ⟨hi, ⟨⟩⟩ := Option.ite_none_right_eq_some.1 h
    exact ⟨misaligned_eaWord, .mergeStore _ _ _ (exec_swl_of_not_isolated hi)⟩
  case swr =>
    obtain ⟨hi, ⟨⟩⟩ := Option.ite_none_right_eq_some.1 h
    exact ⟨misaligned_eaWord, .mergeStore _ _ _ (exec_swr_of_not_isolated hi)⟩
  all_goals exact absurd h nofun

/-- A first access the bus refuses is a host fault with the bus's reason, before anything is recorded. -/
theorem AccessBody.fault {s : State} {o : Result} {k : AccessKind} {a : Word} {w : Width} {m : Bool} {r : HostFault}
    (h : AccessBody s o k a w m) (hr : busRoute a k w s = .error r) : o = .fault (.hostFault r s.devHistory) := by
  cases h with
  | load _ _ _ _ h => exact h.trans (loadDelayed_fault.2 (busFetch_error_iff.2 ⟨r, hr, rfl⟩))
  | mergeLoad _ _ _ h => exact h.trans (loadMerged_fault.2 (busFetch_error_iff.2 ⟨r, hr, rfl⟩))
  | store _ _ _ h => exact h.trans (storeAt_fault.2 (busStore_error_iff.2 ⟨r, hr, rfl⟩))
  | mergeStore _ _ _ h => exact h.trans (storeMerged_fault.2 (.inl (busFetch_error_iff.2 ⟨r, hr, rfl⟩)))

/-- So is the store of SWL and SWR that the bus refuses after the fetch. -/
theorem AccessBody.fault_second {s : State} {o : Result} {k : AccessKind} {a : Word} {w : Width} {b : Binding}
    {r : HostFault} (h : AccessBody s o k a w true) (hf : busRoute a .fetch .word s = .ok b)
    (hr : busRoute a .store .word s = .error r) : ∃ hist, o = .fault (.hostFault r hist) := by
  cases h with
  | mergeStore _ _ _ h =>
    have hfetch := busFetch_ok_iff.2 ⟨b, hf, rfl⟩
    obtain ⟨hist, hu⟩ := busFetch_frame hfetch
    have hr' := (busRoute_congr (congrArg State.platform hu)).trans hr
    exact ⟨_, h.trans (storeMerged_fault.2 (.inr ⟨_, _, hfetch, busStore_error_iff.2 ⟨r, hr', rfl⟩⟩))⟩

/-- Settles O37: the bus's reason is the fault of each of the four bodies. -/
theorem busFaultReasons : Obligations.BusFaultReasons := by
  intro i s k a w h
  obtain ⟨ha, hbody⟩ := exec_accessBody h
  refine ⟨fun hroute => hbody.fault (busRoute_error_iff.2 (.inr (.inl ⟨ha, hroute, rfl⟩))),
    fun b hroute ho => hbody.fault (busRoute_error_iff.2 (.inr (.inr ⟨ha, b, hroute, ho, rfl⟩))),
    fun b hroute hfetch hstore hm => ?_⟩
  rw [hm] at hbody
  have ha' : misaligned a .word = false := by
    cases hbody
    exact ha
  exact hbody.fault_second (busRoute_ok_iff.2 ⟨ha', hroute, hfetch⟩)
    (busRoute_error_iff.2 (.inr (.inr ⟨ha', b, hroute, hstore, rfl⟩)))

/-! ## Opaque devices (20_memory.md R102, R106) -/

theorem sextByte_zextByte (v : Word) : sextByte (zextByte v) = (v.setWidth 8).signExtend 32 := by
  simp [sextByte, zextByte]

theorem zextByte_zextByte (v : Word) : zextByte (zextByte v) = zextByte v := by simp [zextByte]

theorem sextHalf_zextHalf (v : Word) : sextHalf (zextHalf v) = (v.setWidth 16).signExtend 32 := by
  simp [sextHalf, zextHalf]

theorem zextHalf_zextHalf (v : Word) : zextHalf (zextHalf v) = zextHalf v := by simp [zextHalf]

theorem zextByte_eq_ofNat (v : Word) : zextByte v = BitVec.ofNat 32 (v.toNat % 2 ^ 8) := by
  apply BitVec.eq_of_toNat_eq
  simp [zextByte]

theorem zextHalf_eq_ofNat (v : Word) : zextHalf v = BitVec.ofNat 32 (v.toNat % 2 ^ 16) := by
  apply BitVec.eq_of_toNat_eq
  simp [zextHalf]

theorem State.recordEvent_recordEvent (s : State) (e f : DeviceEvent) :
    (s.recordEvent e).recordEvent f = { s with devHistory := s.devHistory ++ [e, f] } := by
  simp [State.recordEvent]

section opaqueUnit

variable {s : State} {a : Word} {w : Width} {rs : Reg} {imm : BitVec 16} {b : Binding} {id : Nat}
  (hb : b.device = .opaqueUnit id)

include hb

theorem busFetch_opaqueUnit (ha : misaligned a w = false) (hr : Reaches s a .fetch w b) :
    busFetch a w s = .ok (drawValue s.devHistory b (translateAddr a - b.start) w,
      s.recordEvent (.fetch b (translateAddr a - b.start) w)) :=
  busFetch_ok_iff.2 ⟨b, busRoute_ok_iff.2 ⟨ha, hr⟩, deviceFetch_opaqueUnit hb _ w s⟩

theorem busStore_opaqueUnit (v : Word) (ha : misaligned a w = false) (hr : Reaches s a .store w b) :
    busStore a w v s = .ok (s.recordEvent (.store b (translateAddr a - b.start) w (storeValue v w))) :=
  busStore_ok_iff.2 ⟨b, busRoute_ok_iff.2 ⟨ha, hr⟩, deviceStore_opaqueUnit hb _ w v s⟩

theorem loadDelayed_opaqueUnit (rt : Reg) (ext : Word → Word) (ha : misaligned a w = false)
    (hr : Reaches s a .fetch w b) :
    loadDelayed rt a w ext s = .next
      { staged s rt (ext (drawValue s.devHistory b (translateAddr a - b.start) w)) with
        devHistory := s.devHistory ++ [.fetch b (translateAddr a - b.start) w] } :=
  loadDelayed_next.2 ⟨_, _, busFetch_opaqueUnit hb ha hr, rfl⟩

theorem storeAt_opaqueUnit (v : Word) (ha : misaligned a w = false) (hr : Reaches s a .store w b) :
    storeAt a w v s = .next
      { s with devHistory := s.devHistory ++ [.store b (translateAddr a - b.start) w (storeValue v w)] } :=
  storeAt_next.2 (busStore_opaqueUnit hb v ha hr)

theorem loadMerged_opaqueUnit (rt : Reg) (merge : Nat → Word → Word → Word)
    (hr : Reaches s (eaWord s rs imm) .fetch .word b) :
    loadMerged rt (ea s rs imm) merge s = .next
      ((s.recordEvent (.fetch b (translateAddr (eaWord s rs imm) - b.start) .word)).setReg rt
        (merge (lane s rs imm) (drawValue s.devHistory b (translateAddr (eaWord s rs imm) - b.start) .word)
          (s.getReg rt))) := by
  rw [← bits_ea_eq_lane]
  exact loadMerged_next.2 ⟨_, _, busFetch_opaqueUnit hb misaligned_eaWord hr, rfl⟩

theorem storeMerged_opaqueUnit (merge : Nat → Word → Word → Word) (v : Word)
    (hr : Reaches s (eaWord s rs imm) .fetch .word b) (hs : Reaches s (eaWord s rs imm) .store .word b) :
    storeMerged (ea s rs imm) merge v s = .next { s with devHistory := s.devHistory ++
      [.fetch b (translateAddr (eaWord s rs imm) - b.start) .word,
       .store b (translateAddr (eaWord s rs imm) - b.start) .word
        (merge (lane s rs imm) (drawValue s.devHistory b (translateAddr (eaWord s rs imm) - b.start) .word) v)] } := by
  rw [← State.recordEvent_recordEvent, ← bits_ea_eq_lane]
  exact storeMerged_next.2 ⟨_, _, busFetch_opaqueUnit hb misaligned_eaWord hr,
    busStore_opaqueUnit hb _ misaligned_eaWord hs⟩

end opaqueUnit

/-- Settles O35: each load's body with the device's draw as the fetched word. -/
theorem loadsFromOpaqueDevices : Obligations.LoadsFromOpaqueDevices := by
  intro s rs rt imm b unit hb
  refine ⟨fun hr => ⟨(Config.draw s.devHistory b (translateAddr (ea s rs imm) - b.start) .byte).setWidth 8, ?_, ?_⟩,
    fun hr ha => ⟨(Config.draw s.devHistory b (translateAddr (ea s rs imm) - b.start) .half).setWidth 16, ?_, ?_⟩,
    fun hr ha hi => ⟨Config.draw s.devHistory b (translateAddr (ea s rs imm) - b.start) .word, ?_⟩,
    fun hr => ⟨⟨_, loadMerged_opaqueUnit hb rt mergeLwl hr, fun r h0 hne => by simp [h0, hne], by simp,
        fun j h0 hj => ?_, rfl⟩,
      ⟨_, loadMerged_opaqueUnit hb rt mergeLwr hr, fun r h0 hne => by simp [h0, hne], by simp,
        fun j hj h0 hlane => ?_, rfl⟩⟩⟩
  · rw [exec_lb, loadDelayed_opaqueUnit hb rt sextByte rfl hr, drawValue, sextByte_zextByte]
  · rw [exec_lbu, loadDelayed_opaqueUnit hb rt zextByte rfl hr, drawValue, zextByte_zextByte]
    rfl
  · rw [exec_lh_of_aligned ha, loadDelayed_opaqueUnit hb rt sextHalf (misaligned_eq_false_iff.2 ha) hr, drawValue,
      sextHalf_zextHalf]
  · rw [exec_lhu_of_aligned ha, loadDelayed_opaqueUnit hb rt zextHalf (misaligned_eq_false_iff.2 ha) hr, drawValue,
      zextHalf_zextHalf]
    rfl
  · rw [exec_lw_of_aligned ha hi, loadDelayed_opaqueUnit hb rt id (misaligned_eq_false_iff.2 ha) hr]
    rfl
  · rw [State.getOut_setReg, if_neg h0, if_pos rfl, wordByte_mergeLwl lane_lt (by omega), if_neg (by omega)]
  · rw [State.getOut_setReg, if_neg h0, if_pos rfl, wordByte_mergeLwr lane_lt hj, if_neg (by omega)]

/-- Settles O36: each store's body; the bytes of a merged word are the register's or the fetched word's by lane. -/
theorem storesToOpaqueDevices : Obligations.StoresToOpaqueDevices := by
  intro s rs rt imm b unit hb hi
  refine ⟨fun hr => ?_, fun hr ha => ?_, fun hr ha => ?_, fun hr hs => ⟨_, busFetch_opaqueUnit hb misaligned_eaWord hr,
    ⟨_, (exec_swl_of_not_isolated hi).trans (storeMerged_opaqueUnit hb mergeSwl _ hr hs),
      fun j hj => wordByte_mergeSwl lane_lt hj⟩,
    ⟨_, (exec_swr_of_not_isolated hi).trans (storeMerged_opaqueUnit hb mergeSwr _ hr hs),
      fun j hj => wordByte_mergeSwr lane_lt hj⟩⟩⟩
  · rw [exec_sb_of_not_isolated hi, storeAt_opaqueUnit hb _ rfl hr, storeValue, zextByte_eq_ofNat]
  · rw [exec_sh_of_aligned ha hi, storeAt_opaqueUnit hb _ (misaligned_eq_false_iff.2 ha) hr, storeValue,
      zextHalf_eq_ofNat]
  · rw [exec_sw_of_aligned ha hi, storeAt_opaqueUnit hb _ (misaligned_eq_false_iff.2 ha) hr, storeValue]

/-! ## The record of device accesses (20_memory.md R104, R106) -/

/-- `new` is `old` with at most `n` entries after it. -/
def GrowsBy (n : Nat) (old new : List DeviceEvent) : Prop := ∃ es, new = old ++ es ∧ es.length ≤ n

theorem GrowsBy.refl (n : Nat) (h : List DeviceEvent) : GrowsBy n h h := ⟨[], by simp⟩

theorem GrowsBy.append_one (h : List DeviceEvent) (e : DeviceEvent) : GrowsBy 1 h (h ++ [e]) := ⟨[e], rfl, le_refl 1⟩

theorem GrowsBy.mono {m n : Nat} {a b : List DeviceEvent} (h : GrowsBy m a b) (hmn : m ≤ n) : GrowsBy n a b :=
  h.imp fun _ ⟨hb, hlen⟩ => ⟨hb, hlen.trans hmn⟩

theorem GrowsBy.trans {m n : Nat} {a b c : List DeviceEvent} (h : GrowsBy m a b) (h' : GrowsBy n b c) :
    GrowsBy (m + n) a c := by
  obtain ⟨es, rfl, hes⟩ := h
  obtain ⟨fs, rfl, hfs⟩ := h'
  exact ⟨es ++ fs, List.append_assoc .., by rw [List.length_append]; exact Nat.add_le_add hes hfs⟩

theorem busFetch_growsBy {a : Word} {w : Width} {s u : State} {v : Word} (h : busFetch a w s = .ok (v, u)) :
    GrowsBy 1 s.devHistory u.devHistory := by
  obtain rfl | ⟨b, off, rfl⟩ := busFetch_state h
  · exact .refl 1 _
  · exact .append_one _ _

theorem busStore_growsBy {a : Word} {w : Width} {v : Word} {s t : State} (h : busStore a w v s = .ok t) :
    GrowsBy 1 s.devHistory t.devHistory := by
  obtain ⟨b, -, rfl⟩ := busStore_ok_iff.1 h
  obtain ⟨base, -, e⟩ | ⟨base, -, e⟩ | ⟨id, -, e⟩ := deviceStore_state b (translateAddr a - b.start) w v s
  · rw [e]; exact .refl 1 _
  · rw [e]; exact .refl 1 _
  · rw [e]; exact .append_one _ _

/-- An instruction that goes on makes at most two accesses (20_memory.md R104). -/
theorem Effect.growsBy {i : Instr} {s t : State} (h : Effect i s t) : GrowsBy 2 s.devHistory t.devHistory := by
  cases h with
  | load _ _ _ _ _ _ hf | merge _ _ _ _ _ hf => exact (busFetch_growsBy hf).mono (by decide)
  | store _ _ _ _ hs => exact (busStore_growsBy hs).mono (by decide)
  | mergeStore _ _ _ _ _ hf hs => exact (busFetch_growsBy hf).trans (busStore_growsBy hs)
  | _ => exact .refl 2 _

/-- Step 5 that faults has made at most one access. -/
theorem executeWord_fault_growsBy {ins : Word} {s : State} {f : Fault} (h : executeWord ins s = .fault f) :
    ∃ r hist, f = .hostFault r hist ∧ GrowsBy 1 s.devHistory hist := by
  unfold executeWord at h
  split at h
  · obtain ⟨r, hist, rfl, rfl | ⟨e, rfl⟩⟩ := exec_fault h
    · exact ⟨r, _, rfl, .refl 1 _⟩
    · exact ⟨r, _, rfl, .append_one _ e⟩
  · exact absurd h raise_fault

/-- A tick that faults has made at most two accesses, the instruction's fetch included. -/
theorem tickBody_fault_growsBy {s : State} {f : Fault} (ha : misaligned s.pc .word = false)
    (h : tickBody s = .fault f) : ∃ r hist, f = .hostFault r hist ∧ GrowsBy 2 s.devHistory hist := by
  cases hf : busFetch s.pc .word s.latchCpc with
  | error g =>
    obtain rfl : g = f := Host.Outcome.fault.inj ((tickBody_fetch_fault ha hf).symm.trans h)
    obtain ⟨r, -, rfl⟩ := busFetch_error_iff.1 hf
    exact ⟨r, _, rfl, .refl 2 _⟩
  | ok p =>
    obtain ⟨ins, u⟩ := p
    rw [tickBody_fetched ha hf, finishTick_fault] at h
    obtain ⟨r, hist, rfl, hgrow⟩ := executeWord_fault_growsBy h
    exact ⟨r, hist, rfl, (busFetch_growsBy hf).trans hgrow⟩

/-- Settles O48: at most one access by the fetch and two by the instruction; a halting tick has made at most two. -/
theorem deviceRecordOnlyGrows : Obligations.DeviceRecordOnlyGrows := by
  intro s t h
  show GrowsBy 3 s.devHistory t.devHistory
  obtain ⟨-, rfl⟩ | ⟨-, -, rfl⟩ | ⟨-, ha, f, hf, rfl⟩ | ⟨-, -, ins, u, v, hf, hv, rfl⟩ := step_cases h
  · exact .refl 3 _
  · exact .refl 3 _
  · obtain ⟨r, hist, rfl, hgrow⟩ := tickBody_fault_growsBy ha hf
    exact hgrow.mono (by decide)
  · obtain ⟨i, he⟩ := executeWord_effect hv
    exact (busFetch_growsBy hf).trans he.growsBy

end Sys2Proof.Machine

namespace Sys2Proof

/-! ## Decoding and encoding agree (30_encoding.md R136 to R141) -/

/-- Settles O9: each map's selecting field and each operand are read back from the encoded word, and the shift amount,
the one operand its type does not bound, fits its field. What is left after the named cases are the primary map's rows. -/
theorem decodeOfEncode : Obligations.DecodeOfEncode := by
  intro i hi
  cases i
  case sll rt rd shamt | srl rt rd shamt | sra rt rd shamt =>
    have hshamt : shamt % 32 = shamt := Nat.mod_eq_of_lt (of_decide_eq_true hi)
    simp [encode, decodeWord, decodeSpecial, hshamt]
  case sllv | srlv | srav | jr | jalr | syscall | brk | mfhi | mthi | mflo | mtlo | mult | multu | div | divu | add | addu
      | sub | subu | and | or | xor | nor | slt | sltu =>
    simp [encode, decodeWord, decodeSpecial]
  case bltz | bgez | bltzal | bgezal => simp [encode, decodeWord, decodeRegimm]
  case mfc0 | mtc0 | rfe => simp [encode, decodeWord, decodeCop0]
  all_goals simp [encode, decodeWord]

/-! ## Decoding reads the row's bits only (30_encoding.md R142) -/

theorem shamtOf_lt (w : Word) : shamtOf w < 32 := bits_lt w 6 5

/-- Words that agree on a mask agree on every field the mask covers. -/
theorem bits_eq_of_and_eq {v w m : Word} {lo len : Nat} (h : v &&& m = w &&& m) (hm : bits m lo len = 2 ^ len - 1) :
    bits v lo len = bits w lo len := by
  apply Nat.eq_of_testBit_eq
  intro i
  rw [testBit_bits, testBit_bits]
  by_cases hi : i < len
  · have hbit : m.getLsbD (lo + i) = true := by simpa [testBit_bits, hi] using congrArg (·.testBit i) hm
    simpa [hbit, hi] using congrArg (·.getLsbD (lo + i)) h
  · simp [hi]

/-- `w` matches `i`'s row, whose fields `i` fits, and decoding any word with `w`'s bits of that row gives `i`. -/
structure ReadsRow (w : Word) (i : Instr) : Prop where
  matchesRow : w &&& i.rowMask = i.rowMatch
  wf : i.wf = true
  decodeWord_of_agree {w' : Word} (h : w' &&& (i.rowMask ||| i.rowFields) = w &&& (i.rowMask ||| i.rowFields)) :
    decodeWord w' = .ok i

/-- One argument for every leaf of the decoder's maps, where `*` stands for the leaf's equations of the selecting fields:
the mask keeps just those fields, and mask and fields together cover all that the leaf reads. -/
theorem readsRow_of_decodeWord {w : Word} {i : Instr} (h : decodeWord w = .ok i) : ReadsRow w i := by
  unfold decodeWord decodeSpecial decodeRegimm decodeCop0 at h
  repeat' split at h
  all_goals cases h
  all_goals
    refine ⟨?_, by simp [Instr.wf, shamtOf_lt], fun hw => ?_⟩
    · simp only [Instr.rowMask, Instr.rowMatch, and_opcodeMask, and_specialMask, and_regimmMask, and_cop0Mask,
        and_rfeMask, *]
      rfl
    · simp only [Instr.rowMask, Instr.rowFields] at hw
      simp (disch := decide) only [decodeWord, decodeSpecial, decodeRegimm, decodeCop0, rsOf, rtOf, rdOf, shamtOf,
        codeOf, imm16Of, imm26Of, bits_eq_of_and_eq hw, *]

end Sys2Proof

namespace Sys2Proof.Machine

/-- Settles O10: the decoded word reads only its row (`ReadsRow`); shifting by 0 into register 0 writes nothing. -/
theorem decodeReadsOnlyTheRow : Obligations.DecodeReadsOnlyTheRow := by
  refine ⟨fun w i h => ?_, fun w w' i h hw => (readsRow_of_decodeWord h).decodeWord_of_agree hw, by decide, fun s => ?_⟩
  · have hrow := readsRow_of_decodeWord h
    exact ⟨hrow.matchesRow, hrow.wf⟩
  · refine ⟨s.setReg 0 (s.getReg 0 <<< 0), rfl, fun r => ?_, rfl⟩
    by_cases hr : r = 0 <;> simp [hr]

end Sys2Proof.Machine

namespace Sys2Proof.Machine

open Sys2Proof.Claims

/-! ## The tick's own state (40_tick_pipeline.md R176, R182) -/

/-- Settles O43, from the fields that no effect writes. -/
theorem handlersLeaveTheTicksOwnState : Obligations.HandlersLeaveTheTicksOwnState := by
  intro i s t h
  obtain ⟨hin, hcpc, hrun, hreason, hbreak, hcnt, hplat⟩ := (exec_effect h).sameFixedFields
  exact ⟨hin, hcpc, hrun, hreason, hbreak, hcnt, hplat⟩

/-! ## What is fetched from a memory device or ROM (40_tick_pipeline.md R173; 20_memory.md R98) -/

theorem wordOfBytes_eq_append (b0 b1 b2 b3 : Byte) : wordOfBytes b0 b1 b2 b3 = b3 ++ b2 ++ b1 ++ b0 := by
  apply BitVec.eq_of_toNat_eq
  have append {n : Nat} (x : BitVec n) (b : Byte) : (x ++ b).toNat = 2 ^ 8 * x.toNat + b.toNat := by
    rw [BitVec.toNat_append, ← Nat.shiftLeft_add_eq_or_of_lt b.isLt, Nat.shiftLeft_eq, Nat.mul_comm]
  rw [wordOfBytes_toNat, append, append, append]
  omega

theorem Memory.readLE_word (m : Memory) (c : Nat) : m.readLE c .word = wordAt m c :=
  wordOfBytes_eq_append ..

theorem busFetch_stored {s : State} {a : Word} {w : Width} {b : Binding} {base : Nat} (hb : Stored b base)
    (ha : misaligned a w = false) (hr : Reaches s a .fetch w b) :
    busFetch a w s = .ok (s.mem.readLE (cell b base a) w, s) := by
  have hd : deviceFetch b (translateAddr a - b.start) w s = (s.mem.readLE (cell b base a) w, s) := by
    obtain hb | hb := hb
    · exact deviceFetch_memory hb _ w s
    · exact deviceFetch_rom hb _ w s
  exact busFetch_ok_iff.2 ⟨b, busRoute_ok_iff.2 ⟨ha, hr⟩, hd⟩

/-- Decoding four bytes and a rest gives an instruction and that rest exactly when decoding their word gives it. -/
theorem decode_four_ok_iff {b0 b1 b2 b3 : Byte} {rest : List Byte} {i : Instr} :
    decode ([b0, b1, b2, b3] ++ rest) = .ok (i, rest) ↔ decodeWord (wordOfBytes b0 b1 b2 b3) = .ok i := by
  show (decodeWord (wordOfBytes b0 b1 b2 b3)).map (fun i => (i, rest)) = _ ↔ _
  cases decodeWord (wordOfBytes b0 b1 b2 b3) <;> simp [Except.map]

/-- Settles O5: the bus reads the device's little-endian word, which is what the decoder makes of the four bytes. -/
theorem fetchReadsFourBytes : Obligations.FetchReadsFourBytes := by
  intro s a b base ha hr hb
  refine ⟨?_, fun i rest => ?_⟩
  · rw [busFetch_stored hb (misaligned_word_of_mod ha) hr, Memory.readLE_word]
  · rw [decode_four_ok_iff, wordOfBytes_eq_append]
    rfl

/-! ## Entering an exception (60_exceptions.md R382 to R388) -/

/-- The push shifts bits 3:0 of SR to bits 5:2, clears bits 1:0 and keeps the rest (60_exceptions.md R384). -/
theorem getLsbD_pushModeStack (sr : Word) (i : Nat) :
    (pushModeStack sr).getLsbD i = if i < 6 then decide (2 ≤ i) && sr.getLsbD (i - 2) else sr.getLsbD i := by
  by_cases hi : i < 32
  · unfold pushModeStack
    interval_cases i <;> simp
  · rw [if_neg (by omega), BitVec.getLsbD_of_ge _ i (by omega), BitVec.getLsbD_of_ge _ i (by omega)]

theorem bits_pushModeStack (sr : Word) :
    bits (pushModeStack sr) 0 2 = 0 ∧ bits (pushModeStack sr) 2 4 = bits sr 0 4 ∧
      bits (pushModeStack sr) 6 26 = bits sr 6 26 := by
  refine ⟨?_, ?_, ?_⟩ <;> apply Nat.eq_of_testBit_eq <;> intro i <;>
    simp only [testBit_bits, getLsbD_pushModeStack]
  · by_cases hi : i < 2
    · simp [hi, show i < 6 by omega]
    · simp [hi]
  · by_cases hi : i < 4
    · simp [hi, show 2 + i < 6 by omega]
    · simp [hi]
  · simp

theorem bev_eq_srBit (s : State) : s.bev = srBit s 22 := bits_one_eq_getLsbD (s.getC0 srSlot) 22

/-- Every cause enters its handler as R382 says. -/
theorem isEntry_throwException (c : Cause) (s : State) : IsEntry s (throwException c s) (causeCode c) := by
  obtain ⟨hlow, hpushed, hhigh⟩ := bits_pushModeStack (s.getC0 12)
  have hsr : (throwException c s).getC0 12 = pushModeStack (s.getC0 12) := throwException_getC0 s c 12
  have hcause : (throwException c s).getC0 13 = causeWord c s.inDelaySlot := throwException_getC0 s c 13
  have hepc : (throwException c s).getC0 14 = epcWord s.cpc s.inDelaySlot := throwException_getC0 s c 14
  unfold IsEntry
  rw [hsr, hcause, hepc]
  refine ⟨hlow, hpushed, hhigh, fun hslot => ?_, fun hslot => ?_, ?_, rfl, fun k h12 h13 h14 => ?_, rfl⟩
  · have h : s.inDelaySlot = false := decide_eq_false (not_not.2 hslot)
    rw [h]
    exact ⟨rfl, rfl⟩
  · have h : s.inDelaySlot = true := decide_eq_true hslot
    rw [h]
    exact ⟨rfl, rfl⟩
  · rw [throwException_pc, exceptionVector, bev_eq_srBit]
  · exact (throwException_getC0 s c k).trans
      ((if_neg h14).trans ((if_neg h13).trans (if_neg h12)))

theorem misaligned_word_of_mod_ne {a : Word} (h : a.toNat % 4 ≠ 0) : misaligned a .word = true :=
  Bool.of_not_eq_false fun hm => h (misaligned_eq_false_iff.1 hm)

theorem step_misaligned {s : State} (hrun : s.runState = .running) (hpc : s.pc.toNat % 4 ≠ 0) :
    step s = .next (throwException .addressErrorLoad s.latchCpc) := by
  rw [step_running hrun, tickBody_misaligned (misaligned_word_of_mod_ne hpc)]
  rfl

/-- Settles O6: at step 1 pc is cpc, so the exception takes the delay-slot form. -/
theorem misalignedPcTrapsAtStepOne : Obligations.MisalignedPcTrapsAtStepOne := by
  intro s hrun hpc
  obtain ⟨hlow, hpushed, hhigh, -, hslot, hvec, hnpc, hother, -⟩ :=
    isEntry_throwException .addressErrorLoad s.latchCpc
  have hne : s.latchCpc.pc - s.latchCpc.cpc ≠ 4 := by
    show s.pc - s.pc ≠ 4
    rw [BitVec.sub_self]
    decide
  obtain ⟨hcause, hepc⟩ := hslot hne
  exact ⟨_, step_misaligned hrun hpc, rfl, hcause, hepc, hvec, hnpc, hlow, hpushed, hhigh, hother, rfl⟩

/-! ## Halting (40_tick_pipeline.md R180) -/

/-- Settles O7: of the four ways a step can end only the host fault halts a running CPU, and it writes just these. -/
theorem hostFaultLeavesTickStartState : Obligations.HostFaultLeavesTickStartState := by
  intro s t hrun h hhalt
  obtain ⟨hn, -⟩ | ⟨-, -, rfl⟩ | ⟨-, ha, f, hf, rfl⟩ | ⟨-, -, ins, u, v, hf, hv, rfl⟩ := step_cases h
  · exact absurd hrun hn
  · exact absurd (hrun.symm.trans hhalt) nofun
  · obtain ⟨r, hist, rfl, es, rfl, -⟩ := tickBody_fault_growsBy ha hf
    exact ⟨⟨r, rfl⟩, ⟨es, rfl⟩, rfl⟩
  · obtain ⟨_, rfl⟩ := busFetch_frame hf
    obtain ⟨i, he⟩ := executeWord_effect hv
    have hvrun : v.runState = .running := he.sameFixedFields.runState.trans hrun
    rw [State.retire_runState, State.commitBanks_runState, hvrun] at hhalt
    split at hhalt <;> exact absurd hhalt nofun

/-! ## The tick around `exec` (40_tick_pipeline.md R171) -/

/-- The statements' step-5 state is what steps 3 and 4 leave. -/
theorem atStepFive_eq (u : State) : atStepFive u = u.advance.commitLoad := rfl

theorem afterStepSeven_eq (v : State) : afterStepSeven v = v.commitBanks.retire := by
  simp [afterStepSeven, State.retire, State.commitBanks]

theorem step_fetch_fault {s : State} {f : Fault} (hrun : s.runState = .running) (hpc : s.pc.toNat % 4 = 0)
    (hf : busFetch s.pc .word s.latchCpc = .error f) : step s = .next (s.haltOn f) := by
  rw [step_running hrun, tickBody_fetch_fault (misaligned_word_of_mod hpc) hf]
  rfl

section fetched

variable {s u : State} {w : Word} (hrun : s.runState = .running) (hpc : s.pc.toNat % 4 = 0)
  (hf : busFetch s.pc .word s.latchCpc = .ok (w, u))

include hrun hpc hf

theorem step_fetched : step s = settleTick s (finishTick (executeWord w (atStepFive u))) := by
  rw [step_running hrun, tickBody_fetched (misaligned_word_of_mod hpc) hf, atStepFive_eq]

theorem step_executed {v : State} (hv : executeWord w (atStepFive u) = .next v) :
    step s = .next (afterStepSeven v) := by
  rw [step_fetched hrun hpc hf, hv, afterStepSeven_eq]
  rfl

theorem step_execute_fault {f : Fault} (hv : executeWord w (atStepFive u) = .fault f) :
    step s = .next (s.haltOn f) := by
  rw [step_fetched hrun hpc hf, hv]
  rfl

end fetched

theorem executeWord_of_decodeWord {w : Word} {i : Instr} (h : decodeWord w = .ok i) (s : State) :
    executeWord w s = exec i s := by
  unfold executeWord
  rw [h]

theorem executeWord_of_reserved {w : Word} {e : DecodeError} (h : decodeWord w = .error e) (s : State) :
    executeWord w s = .next (throwException .illegalInstruction s) := by
  unfold executeWord
  rw [h]
  rfl

/-- Settles O4, from the tick's equations for each outcome of steps 1, 2 and 5. -/
theorem stepRunsDecodedInstruction : Obligations.StepRunsDecodedInstruction := by
  refine fun s => ⟨step_not_running, step_misaligned, fun hrun hpc => ⟨fun r h hf => step_fetch_fault hrun hpc hf,
    fun w u hf => ⟨fun i v hd hv => ?_, fun i r h hd hv => ?_, fun e hd => ?_⟩⟩⟩
  · exact step_executed hrun hpc hf ((executeWord_of_decodeWord hd _).trans hv)
  · exact step_execute_fault hrun hpc hf ((executeWord_of_decodeWord hd _).trans hv)
  · exact step_executed hrun hpc hf (executeWord_of_reserved hd _)

/-! ## Signed overflow (41_alu.md R200) -/

theorem addOverflows_eq_false_iff {a b : Word} :
    addOverflows a b = false ↔ -2 ^ 31 ≤ a.toInt + b.toInt ∧ a.toInt + b.toInt < 2 ^ 31 := by
  have h : addOverflows a b = a.saddOverflow b := (BitVec.saddOverflow_eq a b).symm
  rw [h, BitVec.saddOverflow, Bool.or_eq_false_iff, decide_eq_false_iff_not, decide_eq_false_iff_not]
  omega

theorem subOverflows_eq_false_iff {a b : Word} :
    subOverflows a b = false ↔ -2 ^ 31 ≤ a.toInt - b.toInt ∧ a.toInt - b.toInt < 2 ^ 31 := by
  have h : subOverflows a b = a.ssubOverflow b := by
    rw [BitVec.ssubOverflow_eq, subOverflows]
    cases a.msb <;> cases b.msb <;> cases (a - b).msb <;> rfl
  rw [h, BitVec.ssubOverflow, Bool.or_eq_false_iff, decide_eq_false_iff_not, decide_eq_false_iff_not]
  omega

theorem toInt_sext16 (v : BitVec 16) : (sext16 v).toInt = v.toInt := BitVec.toInt_signExtend_of_le (by decide)

/-! ## The out bank is written, never read (40_tick_pipeline.md R176, R177) -/

/-- The register the instruction writes through set_reg from this state. -/
def writtenReg (s : State) (i : Instr) : Option Reg :=
  match raises s i with
  | none => setRegTarget i
  | some _ => none

theorem writtenReg_eq_some_iff {s : State} {i : Instr} {r : Reg} :
    writtenReg s i = some r ↔ raises s i = none ∧ setRegTarget i = some r := by
  unfold writtenReg
  cases raises s i <;> simp

theorem writtenReg_eq_none_of_target {s : State} {i : Instr} (h : setRegTarget i = none) : writtenReg s i = none := by
  unfold writtenReg
  cases raises s i
  · exact h
  · rfl

theorem writtenReg_of_raises_ite {s : State} {i : Instr} {c : Bool} {code : Word}
    (h : raises s i = if c then some code else none) : writtenReg s i = if c then none else setRegTarget i := by
  unfold writtenReg
  rw [h]
  cases c <;> rfl

theorem trapCode_of_iff {c : Bool} {P : Prop} [Decidable P] {code : Word} (h : c = false ↔ P) :
    (if P then none else some code) = if c then some code else none := by
  cases c
  · exact if_pos (h.1 rfl)
  · exact if_neg fun hp => absurd (h.2 hp) nofun

theorem raises_add (s : State) (rs rt rd : Reg) :
    raises s (.add rs rt rd) = if addOverflows (s.getReg rs) (s.getReg rt) then some 12 else none :=
  trapCode_of_iff addOverflows_eq_false_iff

theorem raises_sub (s : State) (rs rt rd : Reg) :
    raises s (.sub rs rt rd) = if subOverflows (s.getReg rs) (s.getReg rt) then some 12 else none :=
  trapCode_of_iff subOverflows_eq_false_iff

theorem raises_addi (s : State) (rs rt : Reg) (imm16 : BitVec 16) :
    raises s (.addi rs rt imm16) = if addOverflows (s.getReg rs) (sext16 imm16) then some 12 else none :=
  trapCode_of_iff (toInt_sext16 imm16 ▸ addOverflows_eq_false_iff)

/-- `s` with `o` as its out bank. -/
def State.withOut (s : State) (o : RegFile) : State := { s with outRegs := o }

/-- `t'` is `t` but for the out bank, which is `o`, or `o` with one register written as in `t`. -/
inductive SameButOut (o : RegFile) : Option Reg → State → State → Prop where
  | keeps (t : State) : SameButOut o none t (t.withOut o)
  | writes (r : Reg) (v : Word) (t : State) : SameButOut o (some r) (t.setReg r v) ((t.withOut o).setReg r v)

theorem SameButOut.eq_withOut {o : RegFile} {d : Option Reg} {t t' : State} (h : SameButOut o d t t') :
    t' = t.withOut t'.outRegs := by
  cases h <;> rfl

theorem SameButOut.getOut {o : RegFile} {d : Option Reg} {t t' : State} (h : SameButOut o d t t') {r : Reg}
    (hr : r ≠ 0) : t'.getOut r = if d = some r then t.getOut r else o[r.val] := by
  cases h with
  | keeps => exact (if_neg nofun).symm
  | writes k v t =>
    rw [State.getOut_setReg, State.getOut_setReg, if_neg hr, if_neg hr]
    by_cases hk : r = k
    · subst hk
      simp
    · rw [if_neg hk, if_neg fun e => hk (Option.some.inj e).symm]
      rfl

section bodies

variable (s : State) (o : RegFile)

theorem busFetch_withOut (a : Word) (w : Width) :
    busFetch a w (s.withOut o) = (busFetch a w s).map fun p => (p.1, p.2.withOut o) := by
  unfold busFetch
  rw [busRoute_congr (t := s.withOut o) (s := s) rfl]
  cases busRoute a .fetch w s with
  | error r => rfl
  | ok b =>
    show Except.ok _ = Except.ok _
    unfold deviceFetch
    cases b.device <;> rfl

theorem busStore_withOut (a : Word) (w : Width) (v : Word) :
    busStore a w v (s.withOut o) = (busStore a w v s).map (·.withOut o) := by
  unfold busStore
  rw [busRoute_congr (t := s.withOut o) (s := s) rfl]
  cases busRoute a .store w s with
  | error r => rfl
  | ok b =>
    show Except.ok _ = Except.ok _
    unfold deviceStore
    cases b.device <;> rfl

theorem nothing_withOut : SameOutcome (SameButOut o none) (.next s) (.next (s.withOut o)) := .next (.keeps s)

theorem raise_withOut (c : Cause) : SameOutcome (SameButOut o none) (raise c s) (raise c (s.withOut o)) :=
  .next (.keeps (throwException c s))

theorem writeReg_withOut (r : Reg) (v : Word) :
    SameOutcome (SameButOut o (some r)) (writeReg r v s) (writeReg r v (s.withOut o)) := .next (.writes r v s)

/-- ADD, ADDI, SUB: the trap writes no register (41_alu.md R200). -/
theorem trapOrWrite_withOut (c : Bool) (r : Reg) (v : Word) :
    SameOutcome (SameButOut o (if c then none else some r)) (if c then raise .overflow s else writeReg r v s)
      (if c then raise .overflow (s.withOut o) else writeReg r v (s.withOut o)) := by
  cases c
  · exact writeReg_withOut s o r v
  · exact raise_withOut s o .overflow

theorem branchIf_withOut (c : Bool) (imm16 : BitVec 16) :
    SameOutcome (SameButOut o none) (branchIf c imm16 s) (branchIf c imm16 (s.withOut o)) :=
  .ite rfl (.next (.keeps (s.setNpc (branchTarget s.npc imm16)))) (nothing_withOut s o)

theorem linkBranchIf_withOut (c : Bool) (imm16 : BitVec 16) :
    SameOutcome (SameButOut o (some 31)) (linkBranchIf c imm16 s) (linkBranchIf c imm16 (s.withOut o)) :=
  .ite rfl (.next (.writes 31 s.npc (s.setNpc (branchTarget s.npc imm16)))) (.next (.writes 31 s.npc s))

theorem loadDelayed_withOut (r : Reg) (a : Word) (w : Width) (x : Word → Word) :
    SameOutcome (SameButOut o none) (loadDelayed r a w x s) (loadDelayed r a w x (s.withOut o)) := by
  unfold loadDelayed
  rw [busFetch_withOut]
  cases busFetch a w s with
  | error f => exact .fault f
  | ok p => exact .next (.keeps (p.2.setRegDelayed r (x p.1)))

theorem loadMerged_withOut (r : Reg) (a : Word) (m : Nat → Word → Word → Word) :
    SameOutcome (SameButOut o (some r)) (loadMerged r a m s) (loadMerged r a m (s.withOut o)) := by
  unfold loadMerged
  rw [busFetch_withOut]
  cases busFetch (alignWord a) .word s with
  | error f => exact .fault f
  | ok p => exact .next (.writes r (m (bits a 0 2) p.1 (s.getReg r)) p.2)

theorem storeAt_withOut (a : Word) (w : Width) (v : Word) :
    SameOutcome (SameButOut o none) (storeAt a w v s) (storeAt a w v (s.withOut o)) := by
  unfold storeAt
  rw [busStore_withOut]
  cases busStore a w v s with
  | error f => exact .fault f
  | ok t => exact .next (.keeps t)

theorem storeMerged_withOut (a : Word) (m : Nat → Word → Word → Word) (v : Word) :
    SameOutcome (SameButOut o none) (storeMerged a m v s) (storeMerged a m v (s.withOut o)) := by
  unfold storeMerged
  rw [busFetch_withOut]
  cases busFetch (alignWord a) .word s with
  | error f => exact .fault f
  | ok p => exact storeAt_withOut p.2 o (alignWord a) .word (m (bits a 0 2) p.1 v)

theorem gteWord_withOut (ins : Word) :
    SameOutcome (SameButOut o none) (gteWord ins s) (gteWord ins (s.withOut o)) :=
  .ite rfl (.fault _) (raise_withOut s o .coprocessorUnusable)

/-- An instruction does the same with any out bank, and leaves in it at most the register it writes through set_reg. -/
theorem exec_withOut (i : Instr) :
    SameOutcome (SameButOut o (writtenReg s i)) (exec i s) (exec i (s.withOut o)) := by
  cases i
  case sll | srl | sra | sllv | srlv | srav | addu | subu | and | or | xor | nor | slt | sltu | mfhi | mflo | addiu
      | slti | sltiu | andi | ori | xori | lui => exact writeReg_withOut s o _ _
  case jalr rs rd => exact .next (.writes rd s.npc (s.setNpc (s.getReg rs)))
  case jal imm26 => exact .next (.writes 31 s.npc (s.setNpc (jumpTarget s.npc imm26)))
  case bltzal | bgezal => exact linkBranchIf_withOut s o _ _
  case lwl | lwr => exact loadMerged_withOut s o _ _ _
  case add rs rt rd =>
    rw [writtenReg_of_raises_ite (raises_add s rs rt rd)]
    exact trapOrWrite_withOut s o _ rd _
  case sub rs rt rd =>
    rw [writtenReg_of_raises_ite (raises_sub s rs rt rd)]
    exact trapOrWrite_withOut s o _ rd _
  case addi rs rt imm16 =>
    rw [writtenReg_of_raises_ite (raises_addi s rs rt imm16)]
    exact trapOrWrite_withOut s o _ rt _
  all_goals rw [writtenReg_eq_none_of_target rfl]
  case syscall | brk | cop1 | cop3 | lwc0 | lwc1 | lwc3 | swc0 | swc1 | swc3 => exact raise_withOut s o _
  case cop2 | lwc2 | swc2 => exact gteWord_withOut s o _
  case mult | multu | div | divu | mthi | mtlo | jr | j | mfc0 | mtc0 | rfe => exact .next (.keeps _)
  case beq | bne | blez | bgtz | bltz | bgez => exact branchIf_withOut s o _ _
  case lb | lbu => exact loadDelayed_withOut s o _ _ _ _
  case lh | lhu => exact .ite rfl (raise_withOut s o _) (loadDelayed_withOut s o _ _ _ _)
  case lw =>
    exact .ite rfl (raise_withOut s o _) (.ite rfl (nothing_withOut s o) (loadDelayed_withOut s o _ _ _ _))
  case sb => exact .ite rfl (nothing_withOut s o) (storeAt_withOut s o _ _ _)
  case sh | sw => exact .ite rfl (raise_withOut s o _) (.ite rfl (nothing_withOut s o) (storeAt_withOut s o _ _ _))
  case swl | swr => exact .ite rfl (nothing_withOut s o) (storeMerged_withOut s o _ _ _)

end bodies

/-! ## The load-delay slot (40_tick_pipeline.md R175 to R178, R184) -/

/-- What an instruction raises depends on the in bank and SR only. -/
theorem raises_congr {s t : State} (hin : t.inRegs = s.inRegs) (hc0 : t.c0regs = s.c0regs) (i : Instr) :
    raises t i = raises s i := by
  have hreg (r : Reg) : t.getReg r = s.getReg r := congrArg (fun f : RegFile => f[r.val]) hin
  have hsr (k : Nat) : srBit t k = srBit s k := congrArg (fun f : RegFile => f[12].getLsbD k) hc0
  unfold raises lane ea
  simp only [hreg, hsr]

theorem writtenReg_congr {s t : State} (hin : t.inRegs = s.inRegs) (hc0 : t.c0regs = s.c0regs) (i : Instr) :
    writtenReg t i = writtenReg s i := by
  unfold writtenReg
  rw [raises_congr hin hc0]

section delaySlot

variable {s u : State} {w : Word} (hf : busFetch s.pc .word s.latchCpc = .ok (w, u))

include hf

theorem atStepFive_getReg (r : Reg) : (atStepFive u).getReg r = s.getReg r := by
  obtain ⟨_, rfl⟩ := busFetch_frame hf
  rfl

/-- At step 5 the out bank already holds the loaded value. -/
theorem atStepFive_getOut (r : Reg) : (atStepFive u).getOut r =
    if r = 0 then 0 else if r = s.loadDelayTarget then s.loadDelayValue else s.getOut r := by
  obtain ⟨_, rfl⟩ := busFetch_frame hf
  exact State.getOut_commitLoad _ r

theorem writtenReg_atStepFive (o : RegFile) (i : Instr) : writtenReg ((atStepFive u).withOut o) i = writtenReg s i := by
  obtain ⟨_, rfl⟩ := busFetch_frame hf
  exact writtenReg_congr rfl rfl i

end delaySlot

/-- Settles O44: the run with the out bank `o` and the tick's own run differ in the out bank alone (`exec_withOut`), and
step 6 shows the tick's own out bank, which the committed load and then the instruction's write made. -/
theorem loadDelaySlotSeesOldValue : Obligations.LoadDelaySlotSeesOldValue := by
  intro s u w hrun hpc hf
  refine ⟨fun i o v hd hv => ?_, fun rs rt rd hd => ?_⟩
  · have hsame := exec_withOut ((atStepFive u).withOut o) (atStepFive u).outRegs i
    rw [show exec i ((atStepFive u).withOut o) = .next v from hv, writtenReg_atStepFive hf] at hsame
    obtain ⟨v', hv', hbut⟩ := hsame.of_next
    have hexec : executeWord w (atStepFive u) = .next v' := (executeWord_of_decodeWord hd _).trans hv'
    refine ⟨_, step_executed hrun hpc hf hexec, fun r => ?_, congrArg afterStepSeven hbut.eq_withOut⟩
    show v'.getOut r = _
    by_cases hr : r = 0
    · subst hr
      exact executeWord_getOut_zero (u := u.advance) hexec
    · rw [hbut.getOut hr, if_neg hr]
      refine if_congr writtenReg_eq_some_iff rfl ?_
      exact (atStepFive_getOut hf r).trans (if_neg hr)
  · have hexec : executeWord w (atStepFive u) = .next ((atStepFive u).setReg rd (s.getReg rs + s.getReg rt)) := by
      rw [executeWord_of_decodeWord hd, ← atStepFive_getReg hf rs, ← atStepFive_getReg hf rt]
      rfl
    refine ⟨_, step_executed hrun hpc hf hexec, fun r => ?_, rfl, rfl⟩
    show ((atStepFive u).setReg rd _).getOut r = _
    rw [State.getOut_setReg, atStepFive_getOut hf]
    by_cases hr : r = 0 <;> simp [hr]

end Sys2Proof.Machine

namespace Sys2Proof.Machine

open Sys2Proof.Claims

/-! ## One register written (40_tick_pipeline.md R177; 41_alu.md R200, R201) -/

theorem writesReg_of_exec {i : Instr} {s : State} {d : Reg} {v : Word} (h : exec i s = writeReg d v s) :
    WritesReg i s d v :=
  ⟨s.setReg d v, h, fun r => State.getOut_setReg s d r v, rfl⟩

/-- The trap test `c` is false exactly when the exact result `x` fits (`P`), and then the written `v` is that result. -/
theorem writesReg_or_entersOverflow {i : Instr} {s : State} {d : Reg} {v : Word} {c : Bool} {P : Prop} [Decidable P]
    {x : Int} (h : exec i s = if c then raise .overflow s else writeReg d v s) (hc : c = false ↔ P)
    (hv : c = false → v.toInt = x) :
    if P then ∃ v, WritesReg i s d v ∧ v.toInt = x else EntersException i s 12 := by
  cases c with
  | false =>
    rw [if_pos (hc.1 rfl)]
    exact ⟨v, writesReg_of_exec h, hv rfl⟩
  | true =>
    rw [if_neg fun hp => absurd (hc.2 hp) nofun]
    exact ⟨throwException .overflow s, h, isEntry_throwException .overflow s⟩

theorem writesReg_boolWord {i : Instr} {s : State} {d : Reg} {c : Bool} {P : Prop} [Decidable P]
    (h : exec i s = writeReg d (boolWord c) s) (hc : c = true ↔ P) : WritesReg i s d (if P then 1 else 0) := by
  have hb : boolWord c = if P then 1 else 0 := if_congr hc rfl rfl
  exact writesReg_of_exec (hb ▸ h)

theorem ltSigned_iff {a b : Word} : ltSigned a b = true ↔ a.toInt < b.toInt := decide_eq_true_iff

theorem ltUnsigned_iff {a b : Word} : ltUnsigned a b = true ↔ a.toNat < b.toNat := decide_eq_true_iff

/-! ## Immediates and shift amounts (00_scope.md R12; 30_encoding.md R134) -/

theorem toNat_sext16 (v : BitVec 16) : ((sext16 v).toNat : Int) = v.toInt % 2 ^ 32 := by
  rw [← toInt_sext16, BitVec.toInt_eq_toNat_bmod]
  exact (Int.bmod_emod.trans (Int.emod_eq_of_lt (Int.natCast_nonneg _) (mod_cast (sext16 v).isLt))).symm

theorem getLsbD_zext16 (v : BitVec 16) (k : Nat) : (zext16 v).getLsbD k = (decide (k < 16) && v.getLsbD k) := by
  rw [zext16, BitVec.getLsbD_setWidth]
  by_cases hk : k < 16
  · simp [hk, show k < 32 by omega]
  · simp [hk, BitVec.getLsbD_of_ge v k (by omega)]

theorem toNat_upper16 (v : BitVec 16) : (upper16 v).toNat = v.toNat * 2 ^ 16 := by
  have := v.isLt
  rw [upper16, BitVec.toNat_shiftLeft, BitVec.toNat_setWidth, Nat.shiftLeft_eq]
  omega

theorem shiftAmount_eq_mod (v : Word) : shiftAmount v = v.toNat % 32 := by simp [shiftAmount, bits]

/-! ## Shifts as arithmetic (41_alu.md R212 to R217) -/

theorem toNat_shiftLeft_eq_mul (v : Word) (n : Nat) : (v <<< n).toNat = v.toNat * 2 ^ n % 2 ^ 32 := by
  rw [BitVec.toNat_shiftLeft, Nat.shiftLeft_eq]

theorem toNat_ushiftRight_eq_div (v : Word) (n : Nat) : (v >>> n).toNat = v.toNat / 2 ^ n := by
  rw [BitVec.toNat_ushiftRight, Nat.shiftRight_eq_div_pow]

theorem toInt_sshiftRight_eq_div (v : Word) (n : Nat) : (v.sshiftRight n).toInt = v.toInt / 2 ^ n := by
  rw [BitVec.toInt_sshiftRight, Int.shiftRight_eq_div_pow, Nat.cast_pow, Nat.cast_ofNat]

/-! ## Exact sums and differences (41_alu.md R200) -/

theorem toInt_add_of_not_overflows {a b : Word} (h : addOverflows a b = false) :
    (a + b).toInt = a.toInt + b.toInt := by
  obtain ⟨hlo, hhi⟩ := addOverflows_eq_false_iff.1 h
  rw [BitVec.toInt_add]
  exact Int.bmod_eq_of_le (by omega) (by omega)

theorem toInt_sub_of_not_overflows {a b : Word} (h : subOverflows a b = false) :
    (a - b).toInt = a.toInt - b.toInt := by
  obtain ⟨hlo, hhi⟩ := subOverflows_eq_false_iff.1 h
  rw [BitVec.toInt_sub]
  exact Int.bmod_eq_of_le (by omega) (by omega)

theorem addOverflows_eq_true_iff {a b : Word} :
    addOverflows a b = true ↔ a.getLsbD 31 = b.getLsbD 31 ∧ (a + b).getLsbD 31 ≠ a.getLsbD 31 := by
  simp [addOverflows, BitVec.msb_eq_getLsbD_last]

theorem subOverflows_eq_true_iff {a b : Word} :
    subOverflows a b = true ↔ a.getLsbD 31 ≠ b.getLsbD 31 ∧ (a - b).getLsbD 31 ≠ a.getLsbD 31 := by
  simp [subOverflows, BitVec.msb_eq_getLsbD_last]

/-! ## The obligations of 41_alu.md -/

/-- Settles O20: word sum and difference as numbers modulo 2^32, and the two comparisons as the model's conditions. -/
theorem registerArithmeticResults : Obligations.RegisterArithmeticResults := by
  intro s rs rt rd
  refine ⟨⟨_, writesReg_of_exec rfl, BitVec.toNat_add _ _⟩, ⟨_, writesReg_of_exec rfl, ?_⟩,
    writesReg_boolWord rfl ltSigned_iff, writesReg_boolWord rfl ltUnsigned_iff⟩
  have := (s.getReg rt).isLt
  rw [BitVec.toNat_sub]
  omega

/-- Settles O21, bit by bit: the word operations act on each bit, and the extended immediate is 0 above bit 15. -/
theorem logicalResults : Obligations.LogicalResults := by
  intro s rs rt rd imm
  refine ⟨⟨_, writesReg_of_exec rfl, fun k _ => ?and⟩, ⟨_, writesReg_of_exec rfl, fun k _ => ?or⟩,
    ⟨_, writesReg_of_exec rfl, fun k _ => ?xor⟩, ⟨_, writesReg_of_exec rfl, fun k hk => ?nor⟩,
    ⟨_, writesReg_of_exec rfl, fun k _ => ?andi⟩, ⟨_, writesReg_of_exec rfl, fun k _ => ?ori⟩,
    ⟨_, writesReg_of_exec rfl, fun k _ => ?xori⟩⟩
  case and => exact BitVec.getLsbD_and
  case or => exact BitVec.getLsbD_or
  case xor => exact BitVec.getLsbD_xor
  case nor => rw [BitVec.getLsbD_not, BitVec.getLsbD_or, decide_eq_true hk, Bool.true_and]
  case andi => rw [BitVec.getLsbD_and, getLsbD_zext16]
  case ori => rw [BitVec.getLsbD_or, getLsbD_zext16]
  case xori => rw [BitVec.getLsbD_xor, getLsbD_zext16]

/-- Settles O22: each shift is arithmetic by a power of two, and the register forms shift by the low five bits. -/
theorem shiftResults : Obligations.ShiftResults := by
  intro s rs rt rd n
  rw [← shiftAmount_eq_mod]
  refine ⟨⟨_, writesReg_of_exec rfl, ?sll⟩, ⟨_, writesReg_of_exec rfl, ?srl⟩, ⟨_, writesReg_of_exec rfl, ?sra⟩,
    ⟨_, writesReg_of_exec rfl, ?sllv⟩, ⟨_, writesReg_of_exec rfl, ?srlv⟩, ⟨_, writesReg_of_exec rfl, ?srav⟩⟩
  case sll | sllv => exact toNat_shiftLeft_eq_mul _ _
  case srl | srlv => exact toNat_ushiftRight_eq_div _ _
  case sra | srav => exact toInt_sshiftRight_eq_div _ _

/-- Settles O23: the sign-extended immediate is `imm.toInt` as a signed number and `imm.toInt % 2 ^ 32` as an unsigned
one. -/
theorem immediateArithmeticResults : Obligations.ImmediateArithmeticResults := by
  intro s rs rt imm
  refine ⟨⟨_, writesReg_of_exec rfl, ?addiu⟩, writesReg_boolWord rfl ?slti, writesReg_boolWord rfl ?sltiu,
    ⟨_, writesReg_of_exec rfl, toNat_upper16 imm⟩⟩
  case addiu =>
    rw [BitVec.toNat_add, Int.natCast_mod, Int.natCast_add, toNat_sext16]
    exact Int.add_emod_emod ..
  case slti => rw [ltSigned_iff, toInt_sext16]
  case sltiu => rw [ltUnsigned_iff, ← toNat_sext16, Int.ofNat_lt]

/-- Settles O24: the model's overflow tests are the sign-bit conditions, each false exactly when the exact result fits
32 bits, and then the word result is that exact result. -/
theorem signedOverflowTraps : Obligations.SignedOverflowTraps := by
  refine ⟨fun s rs rt rd imm => ⟨?add, ?addi, ?sub⟩, fun a b => ⟨?addBits, ?subBits⟩⟩
  case add => exact writesReg_or_entersOverflow rfl addOverflows_eq_false_iff toInt_add_of_not_overflows
  case addi =>
    rw [← toInt_sext16]
    exact writesReg_or_entersOverflow rfl addOverflows_eq_false_iff toInt_add_of_not_overflows
  case sub => exact writesReg_or_entersOverflow rfl subOverflows_eq_false_iff toInt_sub_of_not_overflows
  case addBits => rw [← addOverflows_eq_false_iff, Bool.not_eq_false, addOverflows_eq_true_iff]
  case subBits => rw [← subOverflows_eq_false_iff, Bool.not_eq_false, subOverflows_eq_true_iff]

end Sys2Proof.Machine

namespace Sys2Proof.Machine

/-! ## Both halves written at once (42_muldiv.md R260, R261) -/

/-- `writeHiLo` goes on with its pair in hi and lo and touches no other field. -/
theorem next_hiLo_of_exec {i : Instr} {s : State} {p : Word × Word} {h l : Word} (hexec : exec i s = writeHiLo p s)
    (hp : p = (h, l)) : exec i s = .next { s with hi := h, lo := l } := by
  subst hp
  exact hexec

/-! ## Products (42_muldiv.md R260, R262, R263) -/

theorem append_splitProduct (p : BitVec 64) : ((splitProduct p).1 ++ (splitProduct p).2 : BitVec 64) = p :=
  BitVec.extractLsb'_append_extractLsb' (w := 32) (len := 32)

/-- The product of two signed words lies in [-2^62, 2^62], so 64 bits hold it. -/
theorem toInt_append_multSigned (a b : Word) :
    ((multSigned a b).1 ++ (multSigned a b).2 : BitVec 64).toInt = a.toInt * b.toInt := by
  have hlo : -2 ^ 62 ≤ a.toInt * b.toInt := BitVec.le_toInt_mul_toInt
  have hhi : a.toInt * b.toInt ≤ 2 ^ 62 := BitVec.toInt_mul_toInt_le
  rw [multSigned, append_splitProduct]
  exact BitVec.toInt_ofInt_eq_self (by decide) (by omega) (by omega)

theorem toNat_append_multUnsigned (a b : Word) :
    ((multUnsigned a b).1 ++ (multUnsigned a b).2 : BitVec 64).toNat = a.toNat * b.toNat := by
  have hlt : a.toNat * b.toNat < 2 ^ 32 * 2 ^ 32 := Nat.mul_lt_mul'' a.isLt b.isLt
  rw [multUnsigned, append_splitProduct]
  exact (BitVec.toNat_ofNat ..).trans (Nat.mod_eq_of_lt hlt)

/-! ## Quotients (42_muldiv.md R261, R264, R265; D30) -/

theorem divSigned_zero (n : Word) : divSigned n 0 = (n, if n.toInt < 0 then 0x00000001 else 0xFFFFFFFF) :=
  if_pos rfl

/-- The one quotient that no signed word holds is that of the most negative word by -1. -/
theorem toInt_sdiv_eq_tdiv {n d : Word} (ho : ¬(n = 0x80000000 ∧ d = 0xFFFFFFFF)) :
    (n.sdiv d).toInt = n.toInt.tdiv d.toInt :=
  BitVec.toInt_sdiv_of_ne_or_ne n d (not_and_or.1 ho)

/-- Outside the table's special rows DIV is the truncating division of signed words. -/
theorem divSigned_eq_srem_sdiv {n d : Word} (hd : d ≠ 0) (ho : ¬(n = 0x80000000 ∧ d = 0xFFFFFFFF)) :
    divSigned n d = (n.srem d, n.sdiv d) := by
  have hq := toInt_sdiv_eq_tdiv ho
  have hr : n.toInt - d.toInt * (n.sdiv d).toInt = (n.srem d).toInt := by rw [hq, BitVec.toInt_srem, Int.tmod_def]
  simp only [divSigned, if_neg hd, if_neg ho, ← hq, hr, BitVec.ofInt_toInt]

theorem divUnsigned_eq_umod_udiv {n d : Word} (hd : d ≠ 0) : divUnsigned n d = (n % d, n / d) := by
  rw [divUnsigned, if_neg hd, ← BitVec.toNat_umod, ← BitVec.toNat_udiv, BitVec.ofNat_toNat, BitVec.ofNat_toNat,
    BitVec.setWidth_eq, BitVec.setWidth_eq]

/-- The remainder of truncated division: smaller than the divisor, and never of the sign opposite to the dividend's. -/
theorem tmod_bounds (n : Int) {d : Int} (hd : d ≠ 0) :
    |n.tmod d| < |d| ∧ (0 < n.tmod d → 0 < n) ∧ (n.tmod d < 0 → n < 0) := by
  rw [Int.abs_eq_natAbs d, abs_lt]
  obtain hn | hn := le_total 0 n
  · obtain ⟨-, hlo, hhi⟩ := (Int.tdiv_tmod_unique hn hd).1 ⟨rfl, rfl⟩
    have hpos : 0 < n.tmod d → n ≠ 0 := fun hr h0 => by simp [h0] at hr
    omega
  · obtain ⟨-, hlo, hhi⟩ := (Int.tdiv_tmod_unique' hn hd).1 ⟨rfl, rfl⟩
    have hneg : n.tmod d < 0 → n ≠ 0 := fun hr h0 => by simp [h0] at hr
    omega

/-! ## The obligations of 42_muldiv.md -/

/-- Settles O25: 64 bits hold either product exactly, and hi and lo are its two halves. -/
theorem multiplyGivesExactProduct : Obligations.MultiplyGivesExactProduct := fun _ _ _ =>
  ⟨⟨_, _, next_hiLo_of_exec rfl rfl, toInt_append_multSigned _ _⟩,
    ⟨_, _, next_hiLo_of_exec rfl rfl, toNat_append_multUnsigned _ _⟩⟩

/-- Settles O26: the table's special rows are the model's own branches, and the ordinary rows are the library's word
division, whose quotient and remainder are those of the integers and of the naturals. -/
theorem divideCases : Obligations.DivideCases := by
  intro s rs rt n d hn hd
  have hdiv : exec (.div rs rt) s = writeHiLo (divSigned n d) s := by rw [hn, hd]; rfl
  have hdivu : exec (.divu rs rt) s = writeHiLo (divUnsigned n d) s := by rw [hn, hd]; rfl
  refine ⟨fun h0 hnn => ?zero, fun h0 hneg => ?zeroNegative, fun hmin hm1 => ?overflow, fun h0 ho => ?ordinary,
    fun h0 => ?unsignedZero, fun h0 => ?unsignedOrdinary⟩
  case zero => exact next_hiLo_of_exec hdiv (by rw [h0, divSigned_zero, if_neg (not_lt.2 hnn)])
  case zeroNegative => exact next_hiLo_of_exec hdiv (by rw [h0, divSigned_zero, if_pos hneg])
  case overflow => exact next_hiLo_of_exec hdiv (by rw [hmin, hm1]; rfl)
  case ordinary =>
    have hd0 : d.toInt ≠ 0 := fun h => h0 (BitVec.toInt_inj.1 h)
    refine ⟨_, _, next_hiLo_of_exec hdiv (divSigned_eq_srem_sdiv h0 ho), ?_⟩
    rw [toInt_sdiv_eq_tdiv ho, BitVec.toInt_srem]
    exact ⟨(Int.mul_tdiv_add_tmod ..).symm, tmod_bounds _ hd0⟩
  case unsignedZero => exact next_hiLo_of_exec hdivu (if_pos h0)
  case unsignedOrdinary =>
    refine ⟨_, _, next_hiLo_of_exec hdivu (divUnsigned_eq_umod_udiv h0), ?_⟩
    rw [BitVec.toNat_umod, BitVec.toNat_udiv]
    exact ⟨(Nat.div_add_mod ..).symm, Nat.mod_lt _ (BitVec.toNat_pos_of_ne_zero h0)⟩

/-- Settles O27: the moves from hi and lo are one register write, the moves to them one field write. -/
theorem hiLoMoves : Obligations.HiLoMoves := fun _ _ =>
  ⟨writesReg_of_exec rfl, writesReg_of_exec rfl, rfl, rfl⟩

end Sys2Proof.Machine

namespace Sys2Proof.Machine

open Sys2Proof.Claims

/-! ## Values read from memory, bytes written to it (20_memory.md R98, R100) -/

theorem byteOf_eq_wordByte (v : Word) (j : Nat) : byteOf v j = wordByte v j :=
  congrArg (BitVec.ofNat 8) (Nat.shiftRight_eq_div_pow ..).symm

/-- The bytes of a word in memory are those at its four addresses. -/
theorem wordByte_wordAt (m : Memory) (c : Nat) {j : Nat} (hj : j < 4) : wordByte (wordAt m c) j = m.read (c + j) := by
  obtain ⟨h0, h1, h2, h3⟩ := byteOf_wordOfBytes (m.read c) (m.read (c + 1)) (m.read (c + 2)) (m.read (c + 3))
  rw [← byteOf_eq_wordByte, wordAt, ← wordOfBytes_eq_append]
  interval_cases j
  · exact h0
  · exact h1
  · exact h2
  · exact h3

theorem Memory.readLE_byte (m : Memory) (c : Nat) : m.readLE c .byte = (m.read c).setWidth 32 := by
  rw [Memory.readLE, wordOfBytes_eq_append, BitVec.setWidth_eq_append (by decide)]
  rfl

theorem Memory.readLE_half (m : Memory) (c : Nat) : m.readLE c .half = (halfAt m c).setWidth 32 := by
  rw [Memory.readLE, wordOfBytes_eq_append, BitVec.setWidth_eq_append (by decide), BitVec.append_assoc]
  rfl

theorem sextByte_setWidth (x : BitVec 8) : sextByte (x.setWidth 32) = x.signExtend 32 := by simp [sextByte]

theorem zextByte_setWidth (x : BitVec 8) : zextByte (x.setWidth 32) = x.setWidth 32 := by simp [zextByte]

theorem sextHalf_setWidth (x : BitVec 16) : sextHalf (x.setWidth 32) = x.signExtend 32 := by simp [sextHalf]

theorem zextHalf_setWidth (x : BitVec 16) : zextHalf (x.setWidth 32) = x.setWidth 32 := by simp [zextHalf]

/-! ## Loads from a memory device or ROM (43_loadstore.md R283 to R287, R291, R292) -/

section stored

variable {s : State} {a : Word} {w : Width} {rs : Reg} {imm : BitVec 16} {b : Binding} {base : Nat}
  (hb : Stored b base)

include hb

theorem loadDelayed_stored (rt : Reg) (ext : Word → Word) (ha : a.toNat % widthBytes w = 0)
    (hr : Reaches s a .fetch w b) :
    loadDelayed rt a w ext s = .next (staged s rt (ext (s.mem.readLE (cell b base a) w))) :=
  loadDelayed_next.2 ⟨_, _, busFetch_stored hb (misaligned_eq_false_iff.2 ha) hr, rfl⟩

theorem busFetch_eaWord_stored (hr : Reaches s (eaWord s rs imm) .fetch .word b) :
    busFetch (eaWord s rs imm) .word s = .ok (wordAt s.mem (cell b base (eaWord s rs imm)), s) := by
  rw [busFetch_stored hb misaligned_eaWord hr, Memory.readLE_word]

theorem loadMerged_stored (rt : Reg) (merge : Nat → Word → Word → Word)
    (hr : Reaches s (eaWord s rs imm) .fetch .word b) :
    loadMerged rt (ea s rs imm) merge s =
      writeReg rt (merge (lane s rs imm) (wordAt s.mem (cell b base (eaWord s rs imm))) (s.getReg rt)) s := by
  rw [← bits_ea_eq_lane]
  exact loadMerged_next.2 ⟨_, _, busFetch_eaWord_stored hb hr, rfl⟩

end stored

/-- Settles O29: one load body with each width's value read, and each instruction's extension of it. -/
theorem delayedLoadsFromStorage : Obligations.DelayedLoadsFromStorage := by
  intro s rs rt imm b base hb
  refine ⟨fun hr => ⟨?lb, ?lbu⟩, fun hr ha => ⟨?lh, ?lhu⟩, fun hr ha hi => ?lw⟩
  case lb =>
    rw [exec_lb, loadDelayed_stored hb rt sextByte (Nat.mod_one _) hr, Memory.readLE_byte, sextByte_setWidth]
  case lbu =>
    rw [exec_lbu, loadDelayed_stored hb rt zextByte (Nat.mod_one _) hr, Memory.readLE_byte, zextByte_setWidth]
  case lh =>
    rw [exec_lh_of_aligned ha, loadDelayed_stored hb rt sextHalf ha hr, Memory.readLE_half, sextHalf_setWidth]
  case lhu =>
    rw [exec_lhu_of_aligned ha, loadDelayed_stored hb rt zextHalf ha hr, Memory.readLE_half, zextHalf_setWidth]
  case lw => rw [exec_lw_of_aligned ha hi, loadDelayed_stored hb rt id ha hr, Memory.readLE_word, id]

/-- Settles O32: both are one register write of the merged word, whose bytes the lane lemmas give. -/
theorem mergedLoadsFromStorage : Obligations.MergedLoadsFromStorage := by
  intro s rs rt imm b base hb hr
  refine ⟨⟨_, writesReg_of_exec (exec_lwl.trans (loadMerged_stored hb rt mergeLwl hr)), fun j hj => ?_⟩,
    ⟨_, writesReg_of_exec (exec_lwr.trans (loadMerged_stored hb rt mergeLwr hr)), fun j hj => ?_⟩⟩
  · have hlane := lane_lt (s := s) (rs := rs) (imm := imm)
    rw [wordByte_mergeLwl hlane hj, wordByte_wordAt _ _ (by omega)]
  · rw [wordByte_mergeLwr lane_lt hj]
    exact if_ctx_congr Iff.rfl (fun hin => wordByte_wordAt _ _ (by omega)) fun _ => rfl

/-! ## Stores to a memory device (43_loadstore.md R288 to R290, R293, R294) -/

section memory

variable {s : State} {a : Word} {w : Width} {rs : Reg} {imm : BitVec 16} {b : Binding} {base : Nat}
  (hb : b.device = .memory base) (hm : s.mem.wf = true)

include hb

theorem busStore_memory (v : Word) (ha : misaligned a w = false) (hr : Reaches s a .store w b) :
    busStore a w v s = .ok { s with mem := s.mem.writeLE (cell b base a) v w } :=
  busStore_ok_iff.2 ⟨b, busRoute_ok_iff.2 ⟨ha, hr⟩, deviceStore_memory hb _ w v s⟩

include hm

/-- A store places the value's low bytes at the address's cell and leaves every other byte as it was. -/
theorem storeAt_memory (v : Word) (ha : a.toNat % widthBytes w = 0) (hr : Reaches s a .store w b) :
    ∃ m, storeAt a w v s = .next { s with mem := m } ∧
      (∀ j < widthBytes w, m.read (cell b base a + j) = wordByte v j) ∧
      ∀ k, (k < cell b base a ∨ cell b base a + widthBytes w ≤ k) → m.read k = s.mem.read k :=
  ⟨_, storeAt_next.2 (busStore_memory hb v (misaligned_eq_false_iff.2 ha) hr),
    fun j hj => (Memory.read_writeLE_inside hm _ v w hj).trans (byteOf_eq_wordByte v j),
    fun _ hk => Memory.read_writeLE_other _ _ v w hk⟩

/-- A merged store places the merged word in the aligned word's four cells. It leaves as it was every byte but those of
the four that the merge changes. -/
theorem storeMerged_memory (merge : Nat → Word → Word → Word) (v : Word)
    (hr : Reaches s (eaWord s rs imm) .fetch .word b) (hs : Reaches s (eaWord s rs imm) .store .word b) :
    ∃ m, storeMerged (ea s rs imm) merge v s = .next { s with mem := m } ∧
      (∀ j < 4, m.read (cell b base (eaWord s rs imm) + j) =
        wordByte (merge (lane s rs imm) (wordAt s.mem (cell b base (eaWord s rs imm))) v) j) ∧
      ∀ k, (∀ j < 4, k = cell b base (eaWord s rs imm) + j →
          wordByte (merge (lane s rs imm) (wordAt s.mem (cell b base (eaWord s rs imm))) v) j =
            wordByte (wordAt s.mem (cell b base (eaWord s rs imm))) j) →
        m.read k = s.mem.read k := by
  obtain ⟨m, hstore, hin, hout⟩ := storeAt_memory hb hm
    (merge (lane s rs imm) (wordAt s.mem (cell b base (eaWord s rs imm))) v)
    (misaligned_eq_false_iff.1 misaligned_eaWord) hs
  rw [← bits_ea_eq_lane] at hstore
  refine ⟨m, storeMerged_next.2 ⟨_, _, busFetch_eaWord_stored (.inl hb) hr, storeAt_next.1 hstore⟩, hin,
    fun k hkeep => ?_⟩
  by_cases hk : k < cell b base (eaWord s rs imm) ∨ cell b base (eaWord s rs imm) + 4 ≤ k
  · exact hout k hk
  · obtain ⟨j, rfl⟩ := Nat.exists_eq_add_of_le (show cell b base (eaWord s rs imm) ≤ k by omega)
    have hj : j < 4 := by omega
    rw [hin j hj, hkeep j hj rfl, wordByte_wordAt _ _ hj]

end memory

/-- Settles O33: one store body at each width. -/
theorem storesToMemory : Obligations.StoresToMemory := by
  intro s rs rt imm b base hm hb hi
  refine ⟨fun hr => ?sb, fun hr ha => ?sh, fun hr ha => ?sw⟩
  case sb =>
    obtain ⟨m, hstore, hin, hout⟩ := storeAt_memory hb hm (s.getReg rt) (Nat.mod_one _) hr
    exact ⟨m, (exec_sb_of_not_isolated hi).trans hstore, hin 0 Nat.one_pos, fun k hk => hout k (Nat.lt_or_gt.1 hk)⟩
  case sh =>
    rw [exec_sh_of_aligned ha hi]
    exact storeAt_memory hb hm (s.getReg rt) ha hr
  case sw =>
    rw [exec_sw_of_aligned ha hi]
    exact storeAt_memory hb hm (s.getReg rt) ha hr

/-- Settles O34: the lane lemmas tell which of the four bytes stored are the register's and which are as fetched. -/
theorem mergedStoresToMemory : Obligations.MergedStoresToMemory := by
  intro s rs rt imm b base hm hb hi hr hs
  have hlane := lane_lt (s := s) (rs := rs) (imm := imm)
  refine ⟨?swl, ?swr⟩
  case swl =>
    obtain ⟨m, hstore, hin, hout⟩ := storeMerged_memory hb hm mergeSwl (s.getReg rt) hr hs
    refine ⟨m, (exec_swl_of_not_isolated hi).trans hstore, fun j hj => ?_, fun k hk => hout k fun j hj hkj => ?_⟩
    · rw [hin j (by omega), wordByte_mergeSwl hlane (by omega), if_pos hj]
    · rw [wordByte_mergeSwl hlane hj, if_neg (by omega)]
  case swr =>
    obtain ⟨m, hstore, hin, hout⟩ := storeMerged_memory hb hm mergeSwr (s.getReg rt) hr hs
    refine ⟨m, (exec_swr_of_not_isolated hi).trans hstore, fun j hj => ?_, fun k hk => hout k fun j hj hkj => ?_⟩
    · rw [Nat.add_assoc, hin _ (by omega), wordByte_mergeSwr hlane (by omega), if_pos (by omega),
        Nat.add_sub_cancel_left]
    · rw [wordByte_mergeSwr hlane hj, if_neg (by omega)]

/-! ## Misaligned accesses (43_loadstore.md R281) -/

theorem misaligned_of_mod_ne {a : Word} {w : Width} (h : a.toNat % widthBytes w ≠ 0) : misaligned a w = true :=
  Bool.of_not_eq_false (mt misaligned_eq_false_iff.1 h)

theorem entersException_of_exec {i : Instr} {s : State} {c : Cause} (h : exec i s = raise c s) :
    EntersException i s (causeCode c) :=
  ⟨_, h, isEntry_throwException c s⟩

/-- Settles O30: the alignment test comes first in each of the five. -/
theorem misalignedAccessesTrap : Obligations.MisalignedAccessesTrap := by
  intro s rs rt imm
  refine ⟨fun ha => ?half, fun ha => ?word⟩
  case half =>
    have hmis : misaligned (ea s rs imm) .half = true := misaligned_of_mod_ne ha
    exact ⟨entersException_of_exec (c := .addressErrorLoad) (if_pos hmis),
      entersException_of_exec (c := .addressErrorLoad) (if_pos hmis),
      entersException_of_exec (c := .addressErrorStore) (if_pos hmis)⟩
  case word =>
    have hmis : misaligned (ea s rs imm) .word = true := misaligned_of_mod_ne ha
    exact ⟨entersException_of_exec (c := .addressErrorLoad) (if_pos hmis),
      entersException_of_exec (c := .addressErrorStore) (if_pos hmis)⟩

/-! ## Isolation (43_loadstore.md R282) -/

/-- `t` is `s` with the COP0 bank `c`. -/
def HasC0 (c : RegFile) (s t : State) : Prop := t = { s with c0regs := c }

theorem deviceFetch_with_c0regs (b : Binding) (off : Word) (w : Width) (s : State) (c : RegFile) :
    deviceFetch b off w { s with c0regs := c } =
      ((deviceFetch b off w s).1, { (deviceFetch b off w s).2 with c0regs := c }) := by
  unfold deviceFetch
  cases b.device <;> rfl

/-- A bus fetch neither reads nor writes the COP0 slots. -/
theorem busFetch_hasC0 (s : State) (c : RegFile) (a : Word) (w : Width) :
    (∃ f, busFetch a w s = .error f ∧ busFetch a w { s with c0regs := c } = .error f) ∨
    ∃ v u u', busFetch a w s = .ok (v, u) ∧ busFetch a w { s with c0regs := c } = .ok (v, u') ∧ HasC0 c u u' := by
  have hroute : busRoute a .fetch w { s with c0regs := c } = busRoute a .fetch w s := busRoute_congr rfl
  cases hr : busRoute a .fetch w s with
  | error r =>
    exact .inl ⟨_, busFetch_error_iff.2 ⟨r, hr, rfl⟩, busFetch_error_iff.2 ⟨r, hroute.trans hr, rfl⟩⟩
  | ok b =>
    exact .inr ⟨_, _, _, busFetch_ok_iff.2 ⟨b, hr, rfl⟩,
      busFetch_ok_iff.2 ⟨b, hroute.trans hr, deviceFetch_with_c0regs ..⟩, rfl⟩

theorem loadDelayed_hasC0 (s : State) (c : RegFile) (rt : Reg) (a : Word) (w : Width) (ext : Word → Word) :
    SameOutcome (HasC0 c) (loadDelayed rt a w ext s) (loadDelayed rt a w ext { s with c0regs := c }) := by
  obtain ⟨f, hs, ht⟩ | ⟨v, u, _, hs, ht, rfl⟩ := busFetch_hasC0 s c a w
  · rw [loadDelayed_fault.2 hs, loadDelayed_fault.2 ht]
    exact .fault f
  · rw [loadDelayed_next.2 ⟨v, _, hs, rfl⟩, loadDelayed_next.2 ⟨v, _, ht, rfl⟩]
    exact .next rfl

theorem loadMerged_hasC0 (s : State) (c : RegFile) (rt : Reg) (a : Word) (merge : Nat → Word → Word → Word) :
    SameOutcome (HasC0 c) (loadMerged rt a merge s) (loadMerged rt a merge { s with c0regs := c }) := by
  obtain ⟨f, hs, ht⟩ | ⟨v, u, _, hs, ht, rfl⟩ := busFetch_hasC0 s c (alignWord a) .word
  · rw [loadMerged_fault.2 hs, loadMerged_fault.2 ht]
    exact .fault f
  · rw [loadMerged_next.2 ⟨v, _, hs, rfl⟩, loadMerged_next.2 ⟨v, _, ht, rfl⟩]
    exact .next rfl

/-- Settles O31: the isolate test comes before every bus access that it can suppress, and the other loads are one of two
bodies that do not look at COP0. -/
theorem isolationSuppressesStoresAndLw : Obligations.IsolationSuppressesStoresAndLw := by
  refine ⟨fun s rs rt imm hi => ?suppressed, fun s c rs rt imm i hload => ?others⟩
  case suppressed =>
    have hiso : s.isolate = true := (isolate_eq_srBit s).trans hi
    exact ⟨if_pos hiso, if_pos hiso, if_pos hiso, fun ha => (if_neg (not_misaligned ha)).trans (if_pos hiso),
      fun ha => ⟨(if_neg (not_misaligned ha)).trans (if_pos hiso), (if_neg (not_misaligned ha)).trans (if_pos hiso)⟩⟩
  case others =>
    have hsame : SameOutcome (HasC0 c) (exec i s) (exec i { s with c0regs := c }) := by
      obtain rfl | rfl | rfl | rfl | ⟨rfl | rfl, ha⟩ := hload
      · exact loadDelayed_hasC0 s c rt (ea s rs imm) .byte sextByte
      · exact loadDelayed_hasC0 s c rt (ea s rs imm) .byte zextByte
      · exact loadMerged_hasC0 s c rt (ea s rs imm) mergeLwl
      · exact loadMerged_hasC0 s c rt (ea s rs imm) mergeLwr
      · rw [exec_lh_of_aligned ha, exec_lh_of_aligned (s := { s with c0regs := c }) ha]
        exact loadDelayed_hasC0 s c rt (ea s rs imm) .half sextHalf
      · rw [exec_lhu_of_aligned ha, exec_lhu_of_aligned (s := { s with c0regs := c }) ha]
        exact loadDelayed_hasC0 s c rt (ea s rs imm) .half zextHalf
    refine ⟨fun t ht => ?_, fun f hf => ?_⟩
    · rw [ht] at hsame
      obtain ⟨_, hv, rfl⟩ := hsame.of_next
      exact hv
    · rw [hf] at hsame
      exact hsame.of_fault

end Sys2Proof.Machine

namespace Sys2Proof.Machine

/-! ## Branch and jump targets as arithmetic (44_control.md R320, R330) -/

/-- The branch target is relative to the delay slot, whose address is `npc - 4`. -/
theorem branchTarget_eq_delaySlot_add (npc : Word) (imm16 : BitVec 16) :
    branchTarget npc imm16 = npc - 4 + BitVec.ofInt 32 (4 * imm16.toInt) := by
  have hoffset : sext16 imm16 <<< 2 = BitVec.ofInt 32 (4 * imm16.toInt) := by
    rw [BitVec.shiftLeft_eq_mul_twoPow, BitVec.ofInt_mul, BitVec.mul_comm]
    rfl
  rw [branchTarget, hoffset]
  exact add_sub_right_comm npc _ 4

/-- The region comes from npc's top four bits and the place in it from the immediate. -/
theorem toNat_jumpTarget (npc : Word) (imm26 : BitVec 26) :
    (jumpTarget npc imm26).toNat = npc.toNat / 2 ^ 28 * 2 ^ 28 + imm26.toNat * 4 := by
  have hnpc := npc.isLt
  have hlow : imm26.toNat * 4 < 2 ^ 28 := by
    have := imm26.isLt
    omega
  have hword : (imm26.setWidth 32 <<< 2).toNat = imm26.toNat * 4 := by
    rw [toNat_shiftLeft_eq_mul, BitVec.toNat_setWidth]
    omega
  have htarget : (jumpTarget npc imm26).toNat = npc.toNat &&& 0xF0000000 ||| imm26.toNat * 4 := by
    rw [jumpTarget, BitVec.toNat_or, BitVec.toNat_and, hword]
    rfl
  have hregion : (jumpTarget npc imm26).toNat / 2 ^ 28 = npc.toNat / 2 ^ 28 := by
    have hmask : npc.toNat / 2 ^ 28 &&& 0xF = npc.toNat / 2 ^ 28 % 2 ^ 4 := Nat.and_two_pow_sub_one_eq_mod _ 4
    rw [htarget, Nat.or_div_two_pow, Nat.and_div_two_pow, Nat.div_eq_of_lt hlow, Nat.or_zero]
    exact hmask.trans (Nat.mod_eq_of_lt (by omega))
  have hplace : (jumpTarget npc imm26).toNat % 2 ^ 28 = imm26.toNat * 4 := by
    rw [htarget, Nat.or_mod_two_pow, Nat.and_mod_two_pow, Nat.mod_eq_of_lt hlow]
    simp
  omega

/-! ## What the shared branch bodies do (44_control.md R320, R321) -/

theorem branchIf_of_iff {c : Bool} {P : Prop} [Decidable P] (hc : c = true ↔ P) (imm16 : BitVec 16) (s : State) :
    branchIf c imm16 s =
      .next (if P then { s with npc := s.npc - 4 + BitVec.ofInt 32 (4 * imm16.toInt) } else s) := by
  rw [branchIf_next, branchTarget_eq_delaySlot_add]
  exact (if_congr hc rfl rfl).symm

theorem branchIf_of_iff_not {c : Bool} {P : Prop} [Decidable P] (hc : c = true ↔ ¬P) (imm16 : BitVec 16) (s : State) :
    branchIf c imm16 s =
      .next (if P then s else { s with npc := s.npc - 4 + BitVec.ofInt 32 (4 * imm16.toInt) }) := by
  rw [branchIf_of_iff hc, ite_not]

/-- A linking branch links in both cases; the condition decides npc alone. -/
theorem linkBranchIf_eq (c : Bool) (imm16 : BitVec 16) (s : State) :
    linkBranchIf c imm16 s = .next ((s.setReg 31 s.npc).setNpc
      (if c then s.npc - 4 + BitVec.ofInt 32 (4 * imm16.toInt) else s.npc)) := by
  rw [linkBranchIf_next, branchTarget_eq_delaySlot_add]
  cases c <;> rfl

/-! ## The sign of a word is its bit 31 -/

theorem decide_toInt_neg_eq_getLsbD (v : Word) : decide (v.toInt < 0) = v.getLsbD 31 :=
  BitVec.msb_eq_toInt.symm.trans v.msb_eq_getLsbD_last

theorem decide_toInt_nonneg_eq_not_getLsbD (v : Word) : decide (v.toInt ≥ 0) = !v.getLsbD 31 := by
  rw [← decide_toInt_neg_eq_getLsbD, ← decide_not, decide_eq_decide]
  exact Int.not_lt.symm

/-! ## The obligations of 44_control.md -/

/-- Settles O40: every branch is the one shared body, and its condition is the statement's or its negation. -/
theorem conditionalBranches : Obligations.ConditionalBranches := by
  rintro s rs rt imm _ rfl
  refine ⟨branchIf_of_iff ?beq imm s, branchIf_of_iff_not ?bne imm s, branchIf_of_iff ?blez imm s,
    branchIf_of_iff_not ?bgtz imm s, branchIf_of_iff ?bltz imm s, branchIf_of_iff_not ?bgez imm s⟩
  case beq | bne | blez | bltz => exact decide_eq_true_iff
  case bgtz => exact decide_eq_true_iff.trans Int.not_le.symm
  case bgez => exact decide_eq_true_iff.trans Int.not_lt.symm

/-- Settles O41: both are the shared linking body, with bit 31 of rs or its complement as the condition. -/
theorem linkingBranches : Obligations.LinkingBranches := by
  intro s rs imm i taken h
  have hexec : exec i s = linkBranchIf taken imm s := by
    obtain ⟨rfl, rfl⟩ | ⟨rfl, rfl⟩ := h
    · exact congrArg (linkBranchIf · imm s) (decide_toInt_neg_eq_getLsbD (s.getReg rs))
    · exact congrArg (linkBranchIf · imm s) (decide_toInt_nonneg_eq_not_getLsbD (s.getReg rs))
  exact ⟨_, hexec.trans (linkBranchIf_eq taken imm s), fun r => State.getOut_setReg s 31 r s.npc, rfl, rfl⟩

/-- Settles O42: a jump writes npc, after the link where it has one; the target's arithmetic is `toNat_jumpTarget`. -/
theorem jumpTargets : Obligations.JumpTargets := by
  intro s rs rd imm
  have htarget := toNat_jumpTarget s.npc imm
  exact ⟨⟨_, rfl, htarget⟩, ⟨_, rfl, htarget, fun r => State.getOut_setReg s 31 r s.npc, rfl⟩, rfl,
    ⟨_, rfl, rfl, fun r => State.getOut_setReg s rd r s.npc, rfl⟩⟩

end Sys2Proof.Machine

namespace Sys2Proof.Machine

open Claims

/-! ## Reserved words (45_system.md R357) -/

section reserved

variable {w : Word}

/-- A row of the SPECIAL map is no listed funct; the default row is left with the listed ones (30_encoding.md R137). -/
theorem reserved_iff_decodeSpecial (hop : bits w 26 6 = 0x00) : Reserved w ↔ ∀ i, decodeSpecial w ≠ .ok i := by
  have hlt := bits_lt w 0 6
  unfold decodeSpecial
  split
  case h_29 => exact iff_of_true (by grind [Reserved]) (fun _ => nofun)
  all_goals simp [Reserved, *]

/-- The same of the REGIMM map on rt (30_encoding.md R138). -/
theorem reserved_iff_decodeRegimm (hop : bits w 26 6 = 0x01) : Reserved w ↔ ∀ i, decodeRegimm w ≠ .ok i := by
  unfold decodeRegimm
  split
  case h_5 => exact iff_of_true (by grind [Reserved]) (fun _ => nofun)
  all_goals simp [Reserved, *]

/-- The same of the COP0 map on rs and, for RFE, funct (30_encoding.md R139). -/
theorem reserved_iff_decodeCop0 (hop : bits w 26 6 = 0x10) : Reserved w ↔ ∀ i, decodeCop0 w ≠ .ok i := by
  unfold decodeCop0
  split
  case h_4 => exact iff_of_true (by grind [Reserved]) (fun _ => nofun)
  all_goals simp [Reserved, *]

/-- The listed words are those that decode to nothing, leaf by leaf of the primary map (30_encoding.md R136): three
opcodes hand the word to a further map, and the default is left with the listed opcodes. -/
theorem reserved_iff_decodeWord : Reserved w ↔ ∀ i, decodeWord w ≠ .ok i := by
  have hlt := bits_lt w 26 6
  unfold decodeWord
  split
  case h_1 hop => exact reserved_iff_decodeSpecial hop
  case h_2 hop => exact reserved_iff_decodeRegimm hop
  case h_17 hop => exact reserved_iff_decodeCop0 hop
  case h_41 => exact iff_of_true (by grind [Reserved]) (fun _ => nofun)
  all_goals simp [Reserved, *]

end reserved

/-- Settles O11: a listed word is one the decoder rejects (`reserved_iff_decodeWord`), and a rejected word is executed
as IllegalInstruction. -/
theorem reservedWordsRaise : Obligations.ReservedWordsRaise := by
  refine ⟨fun w => reserved_iff_decodeWord, fun w s hw => ?_⟩
  cases hd : decodeWord w with
  | ok i => exact absurd hd (reserved_iff_decodeWord.1 hw i)
  | error e => exact ⟨_, executeWord_of_reserved hd s, isEntry_throwException .illegalInstruction s⟩

/-! ## RFE (45_system.md R354) -/

theorem decodeWord_of_rfe {w : Word} (hop : bits w 26 6 = 0x10) (hrs : bits w 21 5 = 0x10)
    (hfunct : bits w 0 6 = 0x10) : decodeWord w = .ok .rfe := by
  simp only [decodeWord, decodeCop0, hop, hrs, hfunct]

/-- The pop shifts bits 5:2 of SR to bits 3:0 and keeps the rest, bits 5:4 included. -/
theorem getLsbD_popModeStack (sr : Word) (i : Nat) :
    (popModeStack sr).getLsbD i = if i < 4 then sr.getLsbD (2 + i) else sr.getLsbD i := by
  by_cases hi : i < 32
  · unfold popModeStack
    interval_cases i <;> simp
  · rw [if_neg (by omega), BitVec.getLsbD_of_ge _ i (by omega), BitVec.getLsbD_of_ge _ i (by omega)]

theorem bits_popModeStack_low (sr : Word) : bits (popModeStack sr) 0 4 = bits sr 2 4 := by
  apply Nat.eq_of_testBit_eq
  intro i
  by_cases hi : i < 4 <;> simp [testBit_bits, getLsbD_popModeStack, hi]

theorem bits_popModeStack_high (sr : Word) : bits (popModeStack sr) 4 28 = bits sr 4 28 := by
  apply Nat.eq_of_testBit_eq
  intro i
  simp [testBit_bits, getLsbD_popModeStack]

theorem popMode_getC0_sr (s : State) : s.popMode.getC0 12 = popModeStack (s.getC0 12) := s.getC0_popMode 12

/-- Settles O16: RFE writes SR alone, and SR is popped field by field. -/
theorem rfePopsModeStack : Obligations.RfePopsModeStack := by
  refine ⟨fun w => decodeWord_of_rfe, fun s => ⟨s.popMode, rfl, ?low, ?high, fun k hk => ?other, rfl⟩⟩
  case low => rw [popMode_getC0_sr, bits_popModeStack_low]
  case high => rw [popMode_getC0_sr, bits_popModeStack_high]
  case other => exact (s.getC0_popMode k).trans (if_neg hk)

/-! ## Traps and the unusable coprocessors (45_system.md R350, R351, R355, R356) -/

/-- Settles O14: each arm is `raise` of its cause, whatever its operand bits. -/
theorem trapInstructionsEnter : Obligations.TrapInstructionsEnter := by
  intro s code f
  have hunusable {i : Instr} (h : exec i s = raise .coprocessorUnusable s) : EntersException i s 11 :=
    entersException_of_exec h
  exact ⟨entersException_of_exec (c := .syscall) rfl, entersException_of_exec (c := .break_) rfl, hunusable rfl,
    hunusable rfl, hunusable rfl, hunusable rfl, hunusable rfl, hunusable rfl, hunusable rfl, hunusable rfl⟩

/-- The J-format word is its opcode above its 26 operand bits (30_encoding.md R133). -/
theorem encodeJ_eq_append (op : BitVec 6) (f : BitVec 26) : encodeJ op.toNat f = op ++ f := by
  apply BitVec.eq_of_toNat_eq
  rw [BitVec.toNat_append, ← Nat.shiftLeft_add_eq_or_of_lt f.isLt, Nat.shiftLeft_eq, encodeJ, BitVec.toNat_ofNat]
  omega

theorem cu2_eq_srBit (s : State) : s.cu2 = srBit s 30 := bits_one_eq_getLsbD (s.getC0 srSlot) 30

theorem gteWord_of_cu2_clear {s : State} (h : srBit s 30 = false) (ins : Word) :
    gteWord ins s = raise .coprocessorUnusable s :=
  if_neg (by simp [cu2_eq_srBit, h])

theorem gteWord_of_cu2_set {s : State} (h : srBit s 30 = true) (ins : Word) :
    gteWord ins s = .fault (.hostFault (.unimplemented ins) s.devHistory) :=
  if_pos ((cu2_eq_srBit s).trans h)

/-- Settles O15: the three words are the encodings of their instructions, whose one body tests CU2. -/
theorem gteFamilyDependsOnCu2 : Obligations.GteFamilyDependsOnCu2 := by
  intro s f
  rw [← encodeJ_eq_append, ← encodeJ_eq_append, ← encodeJ_eq_append]
  refine ⟨decodeOfEncode (.cop2 f) rfl, decodeOfEncode (.lwc2 f) rfl, decodeOfEncode (.swc2 f) rfl,
    fun hclear => ?clear, fun hset => ?set⟩
  case clear =>
    have hunusable {i : Instr} {ins : Word} (h : exec i s = gteWord ins s) : EntersException i s 11 :=
      entersException_of_exec (h.trans (gteWord_of_cu2_clear hclear ins))
    exact ⟨hunusable rfl, hunusable rfl, hunusable rfl⟩
  case set => exact ⟨gteWord_of_cu2_set hset _, gteWord_of_cu2_set hset _, gteWord_of_cu2_set hset _⟩

/-! ## COP0 moves (45_system.md R352, R353) -/

/-- Settles O18: MFC0 stages the slot's value, MTC0 is the one write `setC0`. -/
theorem cop0Moves : Obligations.Cop0Moves := fun s rt rd =>
  ⟨rfl, s.setC0 rd (s.getReg rt), rfl, fun k => s.getC0_setC0 rd k (s.getReg rt), rfl⟩

end Sys2Proof.Machine

namespace Sys2Proof.Machine

open Sys2Proof.Claims

/-! ## Into an exception and back (60_exceptions.md R382, R384; 45_system.md R354) -/

/-- Settles O13: the entry lemma at each of the seven causes. -/
theorem throwExceptionEntersHandler : Obligations.ThrowExceptionEntersHandler := fun s =>
  ⟨isEntry_throwException .addressErrorLoad s, isEntry_throwException .addressErrorStore s,
    isEntry_throwException .syscall s, isEntry_throwException .break_ s, isEntry_throwException .illegalInstruction s,
    isEntry_throwException .coprocessorUnusable s, isEntry_throwException .overflow s⟩

/-- The pop gives back the current and previous pairs, and the previous pair stands in the old pair's place as well. -/
theorem bits_popModeStack_pushModeStack (sr : Word) :
    bits (popModeStack (pushModeStack sr)) 0 4 = bits sr 0 4 ∧ bits (popModeStack (pushModeStack sr)) 4 2 = bits sr 2 2 ∧
      bits (popModeStack (pushModeStack sr)) 6 26 = bits sr 6 26 := by
  obtain ⟨-, hpushed, hhigh⟩ := bits_pushModeStack sr
  have hkept := bits_popModeStack_high (pushModeStack sr)
  refine ⟨(bits_popModeStack_low _).trans hpushed, ?_⟩
  unfold bits at *
  omega

/-- Settles O17: RFE pops the SR that the entry pushed. -/
theorem rfeUndoesExceptionEntry : Obligations.RfeUndoesExceptionEntry := by
  intro c s
  have hsr : (throwException c s).popMode.getC0 12 = popModeStack (pushModeStack (s.getC0 12)) :=
    (popMode_getC0_sr _).trans (congrArg popModeStack (throwException_getC0 s c 12))
  refine ⟨(throwException c s).popMode, rfl, ?_⟩
  rw [hsr]
  exact bits_popModeStack_pushModeStack (s.getC0 12)

/-! ## How an instruction ends (60_exceptions.md R402) -/

/-- The ways an instruction can end, each under what the table of 60_exceptions.md R402 says of it. -/
inductive Ending (i : Instr) (s : State) : Prop where
  /-- It raises the exception the table names. -/
  | trap (c : Cause) (h : exec i s = raise c s) (hr : raises s i = some (causeCode c))
  /-- It is of the COP2 family with CU2 = 1 and stops. -/
  | unimplemented (h : exec i s = .fault (.hostFault (.unimplemented (encode i)) s.devHistory)) (hi : gteFamily i = true)
      (hcu2 : srBit s 30 = true) (hr : raises s i = none)
  /-- It makes a bus access, and goes on or stops with the bus (`exec_accessBody`). -/
  | access (k : AccessKind) (a : Word) (w : Width) (h : firstAccess s i = some (k, a, w)) (hr : raises s i = none)
  /-- It goes on with no access. -/
  | goesOn (t : State) (h : exec i s = .next t) (hpc : t.pc = s.pc) (hr : raises s i = none)

namespace Ending

variable {i : Instr} {s : State}

/-- ADD, ADDI, SUB (41_alu.md R200). -/
theorem of_overflowTest {c : Bool} {r : Reg} {v : Word} (h : exec i s = if c then raise .overflow s else writeReg r v s)
    (hr : raises s i = if c then some 12 else none) : Ending i s := by
  cases c
  · exact .goesOn _ h rfl hr
  · exact .trap .overflow h hr

theorem of_branchIf {c : Bool} {imm16 : BitVec 16} (h : exec i s = branchIf c imm16 s) (hr : raises s i = none) :
    Ending i s := by
  cases c <;> exact .goesOn _ h rfl hr

theorem of_linkBranchIf {c : Bool} {imm16 : BitVec 16} (h : exec i s = linkBranchIf c imm16 s)
    (hr : raises s i = none) : Ending i s := by
  cases c <;> exact .goesOn _ h rfl hr

/-- The COP2 family (45_system.md R356). -/
theorem of_gteWord (h : exec i s = gteWord (encode i) s) (hi : gteFamily i = true)
    (hr : raises s i = if srBit s 30 then none else some 11) : Ending i s := by
  cases hcu2 : srBit s 30
  · exact .trap .coprocessorUnusable (h.trans (gteWord_of_cu2_clear hcu2 _)) (hr.trans (by rw [hcu2]; rfl))
  · exact .unimplemented (h.trans (gteWord_of_cu2_set hcu2 _)) hi hcu2 (hr.trans (if_pos hcu2))

/-- The alignment test (43_loadstore.md R281). -/
theorem of_alignmentTest {a : Word} {w : Width} {c : Cause} {o : Result}
    (h : exec i s = if misaligned a w then raise c s else o)
    (hr : raises s i = if a.toNat % widthBytes w = 0 then none else some (causeCode c))
    (haligned : a.toNat % widthBytes w = 0 → exec i s = o → raises s i = none → Ending i s) : Ending i s := by
  by_cases ha : a.toNat % widthBytes w = 0
  · exact haligned ha (h.trans (if_neg (not_misaligned ha))) (hr.trans (if_pos ha))
  · exact .trap c (h.trans (if_pos (misaligned_of_mod_ne ha))) (hr.trans (if_neg ha))

/-- The isolation test (43_loadstore.md R282). -/
theorem of_isolationTest {o : Result} (h : exec i s = if s.isolate then .next s else o) (hr : raises s i = none)
    (hopen : srBit s 16 = false → ∃ k a w, firstAccess s i = some (k, a, w)) : Ending i s := by
  cases hi : srBit s 16
  · obtain ⟨k, a, w, hfirst⟩ := hopen hi
    exact .access k a w hfirst hr
  · exact .goesOn s (h.trans (if_pos ((isolate_eq_srBit s).trans hi))) rfl hr

end Ending

/-- Every instruction ends in one of these ways; the cases are those of the shared bodies. -/
theorem exec_ending (i : Instr) (s : State) : Ending i s := by
  cases i
  case sll | srl | sra | sllv | srlv | srav | addu | subu | and | or | xor | nor | slt | sltu | addiu | slti | sltiu
      | andi | ori | xori | lui | mult | multu | div | divu | mfhi | mflo | mthi | mtlo | j | jal | jr | jalr | mfc0
      | mtc0 | rfe => exact .goesOn _ rfl rfl rfl
  case beq | bne | blez | bgtz | bltz | bgez => exact .of_branchIf rfl rfl
  case bltzal | bgezal => exact .of_linkBranchIf rfl rfl
  case add => exact .of_overflowTest rfl (raises_add s _ _ _)
  case sub => exact .of_overflowTest rfl (raises_sub s _ _ _)
  case addi => exact .of_overflowTest rfl (raises_addi s _ _ _)
  case syscall | brk | cop1 | cop3 | lwc0 | lwc1 | lwc3 | swc0 | swc1 | swc3 => exact .trap _ rfl rfl
  case cop2 | lwc2 | swc2 => exact .of_gteWord rfl rfl rfl
  case lb | lbu | lwl | lwr => exact .access _ _ _ rfl rfl
  case lh | lhu => exact .of_alignmentTest rfl rfl fun ha _ hr => .access _ _ _ (if_pos ha) hr
  case lw | sh | sw =>
    exact .of_alignmentTest rfl rfl fun ha h hr => .of_isolationTest h hr fun hi => ⟨_, _, _, if_pos ⟨ha, hi⟩⟩
  case sb | swl | swr => exact .of_isolationTest rfl rfl fun hi => ⟨_, _, _, if_pos hi⟩

/-- An access leaves pc alone. -/
theorem AccessBody.pc_of_next {s t : State} {o : Result} {k : AccessKind} {a : Word} {w : Width} {m : Bool}
    (h : AccessBody s o k a w m) (ht : o = .next t) : t.pc = s.pc := by
  cases h with
  | load _ _ _ _ h =>
    obtain ⟨_, _, hf, rfl⟩ := loadDelayed_next.1 (h.symm.trans ht)
    obtain ⟨_, rfl⟩ := busFetch_frame hf
    rfl
  | mergeLoad _ _ _ h =>
    obtain ⟨_, _, hf, rfl⟩ := loadMerged_next.1 (h.symm.trans ht)
    obtain ⟨_, rfl⟩ := busFetch_frame hf
    rfl
  | store _ _ _ h =>
    obtain ⟨_, _, rfl, -⟩ := busStore_frame (storeAt_next.1 (h.symm.trans ht))
    rfl
  | mergeStore _ _ _ h =>
    obtain ⟨_, _, hf, hs⟩ := storeMerged_next.1 (h.symm.trans ht)
    obtain ⟨_, rfl⟩ := busFetch_frame hf
    obtain ⟨_, _, rfl, -⟩ := busStore_frame hs
    rfl

theorem busRoute_of_busFetch_error {a : Word} {w : Width} {s : State} {r : HostFault} {hist : List DeviceEvent}
    (h : busFetch a w s = .error (.hostFault r hist)) : busRoute a .fetch w s = .error r := by
  obtain ⟨_, hr, ⟨⟩⟩ := busFetch_error_iff.1 h
  exact hr

theorem busRoute_of_busStore_error {a v : Word} {w : Width} {s : State} {r : HostFault} {hist : List DeviceEvent}
    (h : busStore a w v s = .error (.hostFault r hist)) : busRoute a .store w s = .error r := by
  obtain ⟨_, hr, ⟨⟩⟩ := busStore_error_iff.1 h
  exact hr

/-- An access stops only where the bus refuses it, or refuses the store of SWL and SWR to the word they fetched. -/
theorem AccessBody.route_of_fault {s : State} {o : Result} {k : AccessKind} {a : Word} {w : Width} {m : Bool}
    {r : HostFault} {hist : List DeviceEvent} (h : AccessBody s o k a w m) (hf : o = .fault (.hostFault r hist)) :
    ∃ k', busRoute a k' w s = .error r ∧ (k' = k ∨ m = true) := by
  cases h with
  | load _ _ _ _ h => exact ⟨_, busRoute_of_busFetch_error (loadDelayed_fault.1 (h.symm.trans hf)), .inl rfl⟩
  | mergeLoad _ _ _ h => exact ⟨_, busRoute_of_busFetch_error (loadMerged_fault.1 (h.symm.trans hf)), .inl rfl⟩
  | store _ _ _ h => exact ⟨_, busRoute_of_busStore_error (storeAt_fault.1 (h.symm.trans hf)), .inl rfl⟩
  | mergeStore _ _ _ h =>
    obtain he | ⟨_, _, hu, he⟩ := storeMerged_fault.1 (h.symm.trans hf)
    · exact ⟨_, busRoute_of_busFetch_error he, .inl rfl⟩
    · obtain ⟨_, hframe⟩ := busFetch_frame hu
      exact ⟨_, (busRoute_congr (congrArg State.platform hframe)).symm.trans (busRoute_of_busStore_error he), .inr rfl⟩

/-- Settles O38: two of the endings can stop; in the second the access is aligned, so the bus has its other two reasons
only. -/
theorem onlyTheseHostFault : Obligations.OnlyTheseHostFault := by
  intro i s r hist hf
  cases exec_ending i s with
  | trap _ h => exact absurd (h.symm.trans hf) raise_fault
  | goesOn _ h => exact absurd (h.symm.trans hf) nofun
  | unimplemented h hi hcu2 =>
    cases h.symm.trans hf
    exact ⟨nofun, .inl ⟨hi, hcu2, rfl⟩⟩
  | access k a w h =>
    obtain ⟨ha, hbody⟩ := exec_accessBody h
    obtain ⟨k', hroute, hk⟩ := hbody.route_of_fault hf
    obtain ⟨hmis, -⟩ | ⟨-, hnone, rfl⟩ | ⟨-, b, hsome, ho, rfl⟩ := busRoute_error_iff.1 hroute
    · exact absurd (ha.symm.trans hmis) nofun
    · exact ⟨nofun, .inr ⟨k, a, w, h, .inl ⟨hnone, rfl⟩⟩⟩
    · exact ⟨nofun, .inr ⟨k, a, w, h, .inr ⟨b, k', hsome, ho, rfl, hk⟩⟩⟩

theorem Ending.entersException {i : Instr} {s : State} {code : Word} (h : Ending i s)
    (hcode : raises s i = some code) : EntersException i s code := by
  cases h with
  | trap c h hr =>
    obtain rfl := Option.some.inj (hr.symm.trans hcode)
    exact entersException_of_exec h
  | unimplemented _ _ _ hr | access _ _ _ _ hr | goesOn _ _ _ hr => exact absurd (hr.symm.trans hcode) nofun

theorem Ending.pc_of_next {i : Instr} {s t : State} (h : Ending i s) (hnone : raises s i = none)
    (ht : exec i s = .next t) : t.pc = s.pc := by
  cases h with
  | trap _ _ hr => exact absurd (hr.symm.trans hnone) nofun
  | unimplemented h => exact absurd (h.symm.trans ht) nofun
  | access _ _ _ h => exact (exec_accessBody h).2.pc_of_next ht
  | goesOn _ h hpc =>
    obtain rfl := Host.Outcome.next.inj (h.symm.trans ht)
    exact hpc

/-- Settles O39: the table names a code at one ending alone, and of the others those that go on leave pc. -/
theorem onlyTheseRaise : Obligations.OnlyTheseRaise := fun i s =>
  ⟨fun _ => (exec_ending i s).entersException, fun hnone _ => (exec_ending i s).pc_of_next hnone⟩

end Sys2Proof.Machine

namespace Sys2Proof.Machine

/-! ## load_state (70_reset_and_hazards.md R435) -/

theorem State.isSome_loadState_iff (t : State) (image : List Byte) : (t.loadState image).isSome = true ↔
    image.length = 416 ∧ ((wordsOfBytes image).getD 0 0).toNat < 32 := by
  unfold State.loadState
  split_ifs with hlen htarget
  · exact iff_of_true rfl ⟨hlen, htarget⟩
  · exact iff_of_false nofun fun h => htarget h.2
  · exact iff_of_false nofun fun h => hlen h.1

/-- A little-endian word is below 32 when its low byte is and the others are 0. -/
theorem wordOfBytes_lt_iff (b0 b1 b2 b3 : Byte) :
    (wordOfBytes b0 b1 b2 b3).toNat < 32 ↔ b0.toNat < 32 ∧ b1 = 0 ∧ b2 = 0 ∧ b3 = 0 := by
  rw [wordOfBytes_toNat]
  bv_omega

/-- Settles O55: `State.isSome_loadState_iff`, the first word being that of the first four bytes. -/
theorem loadStateAcceptsExactly : Obligations.LoadStateAcceptsExactly := by
  refine fun t b0 b1 b2 b3 rest => ⟨?_, fun image hlen => if_neg hlen⟩
  have hlen : (b0 :: b1 :: b2 :: b3 :: rest).length = 416 ↔ rest.length = 412 := by simp
  exact (t.isSome_loadState_iff _).trans (and_congr hlen (wordOfBytes_lt_iff b0 b1 b2 b3))

/-! ## run_until_change (70_reset_and_hazards.md R436) -/

theorem runUntilChange_not_running {s : State} (h : s.runState ≠ .running) (cap : Nat) :
    runUntilChange cap s = (0, s) := by
  cases cap with
  | zero => rfl
  | succ cap => cases hr : s.runState with
    | running => exact absurd hr h
    | sleeping | halted => simp only [runUntilChange, hr]

theorem runUntilChange_running {s t : State} (hr : s.runState = .running) (hs : step s = .next t) (cap : Nat) :
    runUntilChange (cap + 1) s = ((runUntilChange cap t).1 + 1, (runUntilChange cap t).2) := by
  simp only [runUntilChange, hr, hs]

theorem run_succ_of_step {s t : State} (hs : step s = .next t) (k : Nat) :
    Host.Core.run Sys2Proof.core (k + 1) s = Host.Core.run Sys2Proof.core k t := by
  have hcore : Sys2Proof.core.step s = .next t := hs
  simp only [Host.Core.run, hcore]

/-- Settles O56, by induction on the cap: a tick of a running CPU goes on with a cap one lower, from the next state. -/
theorem runUntilChangeIsBounded : Obligations.RunUntilChangeIsBounded := by
  intro cap
  induction cap with
  | zero => exact fun s => ⟨le_rfl, fun h => absurd h (lt_irrefl 0), nofun, rfl⟩
  | succ cap ih =>
    intro s
    by_cases hr : s.runState = .running
    · obtain ⟨t, hs⟩ := step_next s
      obtain ⟨hle, hstop, hticked, hend⟩ := ih t
      rw [runUntilChange_running hr hs]
      refine ⟨Nat.succ_le_succ hle, fun h => hstop (Nat.lt_of_succ_lt_succ h), fun k hk => ?_,
        (run_succ_of_step hs _).trans hend⟩
      cases k with
      | zero => exact ⟨s, rfl, hr⟩
      | succ k =>
        obtain ⟨u, hu, hur⟩ := hticked k (Nat.lt_of_succ_lt_succ hk)
        exact ⟨u, (run_succ_of_step hs k).trans hu, hur⟩
    · rw [runUntilChange_not_running hr]
      exact ⟨Nat.zero_le _, fun _ => hr, nofun, rfl⟩

/-! ## Breakpoints and bindings (70_reset_and_hazards.md R433; 20_memory.md R86) -/

theorem mem_insertAddress (a x : Word) (l : List Word) : x ∈ insertAddress a l ↔ x = a ∨ x ∈ l := by
  fun_induction insertAddress a l with
  | case1 => simp
  | case2 => exact List.mem_cons
  | case3 rest => simp
  | case4 b rest _ _ ih => rw [List.mem_cons, ih, List.mem_cons, or_left_comm]

/-- Inserting keeps the breakpoint set's form (10_state.md R47; log 15). -/
theorem pairwise_insertAddress (a : Word) {l : List Word} (h : l.Pairwise fun x y => x.toNat < y.toNat) :
    (insertAddress a l).Pairwise fun x y => x.toNat < y.toNat := by
  fun_induction insertAddress a l with
  | case1 => exact List.pairwise_singleton _ _
  | case2 b rest hab =>
    refine List.pairwise_cons.2 ⟨fun x hx => ?_, h⟩
    obtain rfl | hx := List.mem_cons.1 hx
    · exact hab
    · exact hab.trans (List.rel_of_pairwise_cons h hx)
  | case3 => exact h
  | case4 b rest hab hne ih =>
    refine List.pairwise_cons.2 ⟨fun x hx => ?_, ih h.of_cons⟩
    obtain rfl | hx := (mem_insertAddress a x rest).1 hx
    · exact lt_of_le_of_ne (not_lt.1 hab) fun e => hne (BitVec.eq_of_toNat_eq e.symm)
    · exact List.rel_of_pairwise_cons h hx

theorem bindingAligned_iff (b : Binding) : bindingAligned b = true ↔ b.start.toNat % 4 = 0 ∧ b.size.toNat % 4 = 0 := by
  simp [bindingAligned, bits]

/-- Settles O57: the frames hold by computation; the rest is what insertion and filtering do to a rising list, and
`connect`'s one test. -/
theorem hostOperationsTouchOneField : Obligations.HostOperationsTouchOneField := by
  refine fun s r a b => ⟨rfl, rfl, fun x => mem_insertAddress a x s.breakpoints, rfl, fun x => ?_,
    fun h => ⟨pairwise_insertAddress a h, h.filter _⟩, fun h => if_pos ((bindingAligned_iff b).2 h),
    fun h => if_neg (mt (bindingAligned_iff b).1 h)⟩
  simp [State.removeBreakpoint, and_comm]

end Sys2Proof.Machine

namespace Sys2Proof.Machine

/-! ## Words written out from the spec (30_encoding.md R131 to R139) -/

/-- Settles O12: the words are closed, so the decoder itself is evaluated on each, independently of the encoder. -/
theorem specWordsDecode : Obligations.SpecWordsDecode := by
  unfold Obligations.SpecWordsDecode
  decide

end Sys2Proof.Machine
